-- ==== Sys2Proof/Word.lean ====
section
/-! DEFINITION. The words of the BX-7460 and the identifiers of its agents (00 R2-R4; 01 R11; 02 R25). -/

namespace Sys2Proof

/-- One byte. -/
abbrev Byte := BitVec 8
/-- The contents of one 32-bit vector or scalar register (00, "Names"). -/
abbrev Word := BitVec 32
/-- A 64-bit value: a register pair (R4), an address, a PC. -/
abbrev DWord := BitVec 64
/-- A mask over the lanes of a wave; bit `i` is lane `i` (R265, offset 0x20). -/
abbrev Lanes := BitVec 64
/-- A program counter (R72). -/
abbrev PC := BitVec 64
/-- An instruction word (R75). -/
abbrev IWord := BitVec 96

/-- A wave, by grid identifier, linear block index and wave index in its block (R28). -/
structure WaveId where
  grid  : Nat
  block : Nat
  wave  : Nat
  deriving DecidableEq, Repr

/-- A core: its die 0-3 and its number there, 0-47, or 48-51 for the service cores (R11, R339). -/
structure CoreId where
  die  : Nat
  core : Nat
  deriving DecidableEq, Repr

/-- One path of one split of a wave: `second` names path 2 of a dual pair (R29). -/
structure PathId where
  wave   : WaveId
  split  : Nat
  second : Bool
  deriving DecidableEq, Repr

/-- A table: a list of keyed records. A key stands at most once (`Sys2Proof.Machine.Tbl`). -/
abbrev Tbl (κ α : Type) := List (κ × α)

/-- A sparse map from naturals: keys strictly rising, no entry equal to the default. -/
abbrev Sparse (α : Type) := List (Nat × α)

end Sys2Proof
end

