-- ==== Sys2Proof/Syntax.lean ====
section
/-! DEFINITION. The instructions and events of the opcode table as terms: one constructor of `Instr` for each of its 223 rows
(04 R75-R92; the entries of 19 to 22; 95 for what each event holds). -/

namespace Sys2Proof

/-- The type group (R80). -/
inductive Ty where
  | i32 | n32 | i64 | n64 | i16 | n16 | i8 | n8 | f32 | f64 | f16 | bf16 | e4m3 | e5m2 | q4
  deriving DecidableEq, Repr

/-- The rounding group (R80). -/
inductive Rnd where
  | rn | rz | ru | rd
  deriving DecidableEq, Repr

/-- A guard: a predicate, or its negation (R79). -/
structure Guard where
  neg : Bool
  p   : BitVec 3
  deriving DecidableEq, Repr

/-- Guard and hints of a word: stall count, yield bit and the release flags of D, A and B (R75, R81-R83). -/
structure Hdr where
  guard : Guard
  st    : BitVec 4
  y     : Bool
  ru    : BitVec 3
  deriving DecidableEq, Repr

/-- A source or destination whose kind the word chooses: vector, scalar, predicate or immediate (R76, R77). An immediate of
operand B is its 30-bit value; an immediate of operand A is its 10-bit value, sign-extended to 30 bits. -/
inductive Opnd where
  | v (r : BitVec 8)
  | s (r : BitVec 7)
  | p (n : BitVec 3)
  | i (x : BitVec 30)
  deriving DecidableEq, Repr

/-- A barrier operand: its level and number (R41). -/
structure Bar where
  level : BitVec 2
  num   : BitVec 6
  deriving DecidableEq, Repr

/-- The access group of a window access (R330, R370). -/
inductive Acc where
  | nochk
  | chk (p : BitVec 3)
  | sc (scope : BitVec 3)
  deriving DecidableEq, Repr

/-- The offset of ATOM and RED, carried in the immediate field (R292). -/
inductive AtomOff where
  | const (n : BitVec 8)
  | reg (r : BitVec 8)
  deriving DecidableEq, Repr

/-- The modes of VOTE (R375). -/
inductive VoteMode where
  | any | all | uni | ballot
  deriving DecidableEq, Repr

/-- The conditions of SETP and SSETP (R358). -/
inductive Cond where
  | eq | ne | lt | le | gt | ge | num | nan
  deriving DecidableEq, Repr

/-- The operations of ATOM, RED, WRED, WSCAN and the bins (R292, R350, R380, R240). -/
inductive AOp where
  | add | min | max | and | or | xor | exch | cas
  deriving DecidableEq, Repr

/-- The modes of SHFL (R360). -/
inductive ShflMode where
  | idx | up | down | xor
  deriving DecidableEq, Repr

/-- The in-flight paths of WAITN (R237, R238). -/
inductive CPath where
  | open | cpy | bin | atom
  deriving DecidableEq, Repr

/-- The query forms of BARQ (R295). -/
inductive BarqForm where
  | gen | state | pend
  deriving DecidableEq, Repr

/-- The directions of CPY (R230). -/
inductive CpyDir where
  | mm | mp | pm
  deriving DecidableEq, Repr

/-- The semirings of MMA (R199, R212). -/
inductive Semi where
  | plus | minPlus | maxPlus | maxTimes | orAnd
  deriving DecidableEq, Repr

/-- The fills of MXZ (R219). -/
inductive Fill where
  | zero | pinf | ninf
  deriving DecidableEq, Repr

/-- The operation of HADD2 (R319). -/
inductive H2Op where
  | add | min | max
  deriving DecidableEq, Repr

/-- The header of an RPC frame (R278). -/
structure FrameHdr where
  code    : Byte
  version : Byte
  len     : BitVec 16
  session : Word
  tag     : DWord
  seq     : Word
  resv    : BitVec 96
  deriving DecidableEq, Repr

/-- Where a frame came from: a letterbox slot, whose bytes hold its header and payload (R277), or a peer's address and UDP
port, with the frame's header and payload (R283). -/
inductive Caller where
  | slot (n : Nat)
  | peer (addr port : Nat) (hdr : FrameHdr) (payload : List Byte)
  deriving DecidableEq, Repr

/-- The rings that a SESSION_OPEN names (R279): the base and the number of entries, the address of the consumer count and the
MSI-X vector. -/
structure RingSpec where
  base     : Nat
  entries  : Nat
  consumer : Nat
  vector   : Nat
  deriving DecidableEq, Repr

/-- Which part an error report is about, for the structures of R271. -/
inductive UeSite where
  | regs (w : WaveId) (line : Nat) (written : Bool)
  | pantry (grid block share off : Nat)
  | lineStore (core : CoreId) (line : Nat)
  | waveBuffer (w : WaveId) (va : Nat)
  | blockBuffer (grid block : Nat) (va : Nat)
  | clusterBuffer (grid group : Nat) (va : Nat)
  | fetch (core : CoreId) (space line : Nat)
  | tile (die hearth tile cell : Nat)
  | directory (die : Nat) (line : Nat)
  | reduction (grid block n : Nat)
  | latch (die hearth : Nat)
  | translation (die space page : Nat)
  deriving DecidableEq, Repr

/-- The scope of DEBUG_HALT (R262): a grid, a block or a wave. -/
inductive HaltScope where
  | grid (g : Nat)
  | block (g b : Nat)
  | wave (w : WaveId)
  deriving DecidableEq, Repr

/-- An end of a MEMCPY: a device virtual address of the session, or a host bus address (R280). -/
inductive CopyEnd where
  | device (va : Nat)
  | host (bus : Nat)
  | remote (addr port session va : Nat)
  deriving DecidableEq, Repr

/-- The power states of a die (R286). -/
inductive Power where
  | p0 | p1 | p2 | idle
  deriving DecidableEq, Repr

/-- Page permissions (R145, R281). -/
structure Perms where
  r : Bool
  w : Bool
  x : Bool
  deriving DecidableEq, Repr

/-- The instructions (each with its guard and hints) and the events of the opcode table. Registers of a pair are named by the
even register. -/
inductive Instr where
  -- control
  | nop (h : Hdr)
  | bra (h : Hdr) (disp : BitVec 30)
  | braDual (h : Hdr) (disp : BitVec 30) (jl : BitVec 10) (js : BitVec 4)
  | braSplit (h : Hdr) (disp : BitVec 30) (jl : BitVec 10) (js : BitVec 4)
  | brx (h : Hdr) (a : BitVec 7)
  | call (h : Hdr) (d : BitVec 7) (t : Opnd)
  | ret (h : Hdr) (a : BitVec 7)
  | join (h : Hdr)
  | exit (h : Hdr)
  | yield (h : Hdr)
  | sleep (h : Hdr) (n : Opnd)
  | elect (h : Hdr) (d : BitVec 3) (idx : Option (BitVec 7))
  | vote (h : Hdr) (mode : VoteMode) (d : Opnd) (a : BitVec 3)
  -- integer and logic
  | iadd (h : Hdr) (d : BitVec 8) (a b : Opnd) (ty : Ty) (sat : Bool)
  | isub (h : Hdr) (d : BitVec 8) (a b : Opnd) (ty : Ty) (sat : Bool)
  | imul (h : Hdr) (d : BitVec 8) (a b : Opnd) (ty : Ty) (sat : Bool)
  | imulhi (h : Hdr) (d : BitVec 8) (a b : Opnd) (ty : Ty)
  | imad (h : Hdr) (d : BitVec 8) (a b c : Opnd) (ty : Ty) (sat : Bool)
  | imin (h : Hdr) (d : BitVec 8) (a b : Opnd) (ty : Ty)
  | imax (h : Hdr) (d : BitVec 8) (a b : Opnd) (ty : Ty)
  | iabs (h : Hdr) (d : BitVec 8) (a : Opnd) (ty : Ty) (sat : Bool)
  | isad (h : Hdr) (d : BitVec 8) (a b c : Opnd) (ty : Ty) (sat : Bool)
  | idot4 (h : Hdr) (d : BitVec 8) (a b c : Opnd) (ty : Ty) (sat : Bool) (sgn : BitVec 2)
  | lop3 (h : Hdr) (d : BitVec 8) (a b c : Opnd) (ty : Ty) (t : BitVec 8)
  | shl (h : Hdr) (d : BitVec 8) (a b : Opnd) (ty : Ty)
  | shr (h : Hdr) (d : BitVec 8) (a b : Opnd) (ty : Ty)
  | shra (h : Hdr) (d : BitVec 8) (a b : Opnd) (ty : Ty)
  | rot (h : Hdr) (d : BitVec 8) (a b : Opnd) (ty : Ty) (right : Bool)
  | shf (h : Hdr) (d : BitVec 8) (a b c : Opnd) (right : Bool)
  | bfe (h : Hdr) (d : BitVec 8) (a b : Opnd) (ty : Ty)
  | bfi (h : Hdr) (d : BitVec 8) (a b : Opnd) (ty : Ty)
  | popc (h : Hdr) (d : BitVec 8) (a : Opnd) (ty : Ty)
  | clz (h : Hdr) (d : BitVec 8) (a : Opnd) (ty : Ty)
  | brev (h : Hdr) (d : BitVec 8) (a : Opnd) (ty : Ty)
  | prmt (h : Hdr) (d : BitVec 8) (a b : Opnd) (sel : BitVec 16)
  | lea (h : Hdr) (d : BitVec 8) (a b : Opnd) (ty : Ty) (sx : Bool) (sh : BitVec 5)
  | mov (h : Hdr) (d : BitVec 8) (a : Opnd) (ty : Ty)
  | movi (h : Hdr) (d : BitVec 8) (imm : BitVec 32)
  | shfl (h : Hdr) (d a : BitVec 8) (b : Opnd) (ty : Ty) (mode : ShflMode) (pd : BitVec 3)
  | readlane (h : Hdr) (d : BitVec 7) (a : BitVec 8) (b : Opnd) (ty : Ty)
  | wred (h : Hdr) (d : Opnd) (a : BitVec 8) (ty : Ty) (rnd : Rnd) (op : AOp)
  | wscan (h : Hdr) (d a : BitVec 8) (ty : Ty) (rnd : Rnd) (op : AOp) (excl : Bool)
  | setp (h : Hdr) (d : BitVec 3) (a b : Opnd) (ty : Ty) (cond : Cond)
  | plop (h : Hdr) (d a b c : BitVec 3) (t : BitVec 8)
  | sel (h : Hdr) (d : BitVec 8) (a b : Opnd) (ty : Ty) (p : BitVec 3) (neg : Bool)
  -- floating point
  | fadd (h : Hdr) (d : BitVec 8) (a b : Opnd) (rnd : Rnd) (na nb : Bool)
  | fsub (h : Hdr) (d : BitVec 8) (a b : Opnd) (rnd : Rnd) (na nb : Bool)
  | fmul (h : Hdr) (d : BitVec 8) (a b : Opnd) (rnd : Rnd) (na nb : Bool)
  | ffma (h : Hdr) (d : BitVec 8) (a b c : Opnd) (rnd : Rnd) (na nb nc : Bool)
  | fmin (h : Hdr) (d : BitVec 8) (a b : Opnd)
  | fmax (h : Hdr) (d : BitVec 8) (a b : Opnd)
  | frcp (h : Hdr) (d : BitVec 8) (a : Opnd) (rnd : Rnd)
  | frsq (h : Hdr) (d : BitVec 8) (a : Opnd)
  | fsqrt (h : Hdr) (d : BitVec 8) (a : Opnd) (rnd : Rnd)
  | fexp2 (h : Hdr) (d : BitVec 8) (a : Opnd)
  | flog2 (h : Hdr) (d : BitVec 8) (a : Opnd)
  | fsin (h : Hdr) (d : BitVec 8) (a : Opnd)
  | fcos (h : Hdr) (d : BitVec 8) (a : Opnd)
  | fscale (h : Hdr) (d : BitVec 8) (a b : Opnd) (rnd : Rnd)
  | frnd (h : Hdr) (d : BitVec 8) (a : Opnd) (rnd : Rnd)
  | fclass (h : Hdr) (d : BitVec 8) (a : Opnd) (ty : Ty)
  | fdot2 (h : Hdr) (d : BitVec 8) (a b c : Opnd) (ty : Ty) (rnd : Rnd) (na nb nc : Bool)
  | dadd (h : Hdr) (d : BitVec 8) (a b : Opnd) (rnd : Rnd) (na nb : Bool)
  | dmul (h : Hdr) (d : BitVec 8) (a b : Opnd) (rnd : Rnd) (na nb : Bool)
  | dfma (h : Hdr) (d : BitVec 8) (a b c : Opnd) (rnd : Rnd) (na nb nc : Bool)
  | hadd2 (h : Hdr) (d : BitVec 8) (a b : Opnd) (ty : Ty) (rnd : Rnd) (na nb : Bool) (op : H2Op)
  | hmul2 (h : Hdr) (d : BitVec 8) (a b : Opnd) (ty : Ty) (rnd : Rnd) (na nb : Bool)
  | hfma2 (h : Hdr) (d : BitVec 8) (a b c : Opnd) (ty : Ty) (rnd : Rnd) (na nb nc : Bool)
  -- conversion
  | cvt (h : Hdr) (d : BitVec 8) (a : Opnd) (dt st : Ty) (rnd : Rnd) (sat : Bool)
  | qpack (h : Hdr) (d a : BitVec 8) (b : Opnd) (st : Ty)
  | qunpack (h : Hdr) (d : BitVec 8) (a b : Opnd) (dt : Ty)
  -- windows and pantry
  | open (h : Hdr) (w : BitVec 4) (a : Opnd) (st : BitVec 7) (rd : BitVec 2) (ro : Bool) (pd : BitVec 3) (tmo : BitVec 5)
  | close (h : Hdr) (w : BitVec 4)
  | reopen (h : Hdr) (w : BitVec 4) (st : BitVec 7) (tmo : BitVec 5)
  | reopenTrap (h : Hdr) (st : BitVec 7) (tmo : BitVec 5)
  | wquery (h : Hdr) (d : BitVec 8) (w : BitVec 4) (addr : Bool)
  | ldw (h : Hdr) (d : BitVec 8) (w : BitVec 4) (off : Opnd) (ty : Ty) (size : BitVec 3) (acc : Acc)
  | ldws (h : Hdr) (d : BitVec 7) (w : BitVec 4) (off : Opnd) (ty : Ty) (size : BitVec 3) (acc : Acc)
  | stw (h : Hdr) (d : BitVec 8) (w : BitVec 4) (off : Opnd) (ty : Ty) (size : BitVec 3) (acc : Acc)
  | stws (h : Hdr) (d : BitVec 7) (w : BitVec 4) (off : Opnd) (ty : Ty) (size : BitVec 3) (acc : Acc)
  | ldl (h : Hdr) (d : BitVec 8) (a : Opnd) (disp : BitVec 20) (ty : Ty) (size : BitVec 3)
  | stl (h : Hdr) (d : BitVec 8) (a : Opnd) (disp : BitVec 20) (ty : Ty) (size : BitVec 3)
  | cstw (h : Hdr) (d : BitVec 8) (w : BitVec 4) (off : Opnd) (ty : Ty) (cw : BitVec 4)
  -- commit, atomics, synchronisation
  | commit (h : Hdr) (st : BitVec 7) (level : BitVec 3) (strict : Option (BitVec 7))
  | abort (h : Hdr) (st : BitVec 7) (level : BitVec 3)
  | acquire (h : Hdr) (st : BitVec 7) (level : BitVec 3)
  | atom (h : Hdr) (d : BitVec 8) (w : BitVec 4) (off : AtomOff) (b : BitVec 8) (ty : Ty) (op : AOp) (scope pd : BitVec 3)
  | red (h : Hdr) (w : BitVec 4) (off : AtomOff) (b : BitVec 8) (ty : Ty) (op : AOp) (scope : BitVec 3)
  | ifence (h : Hdr)
  | arrive (h : Hdr) (d : BitVec 7) (bar : Bar) (n : Opnd)
  | waitb (h : Hdr) (d : BitVec 7) (bar : Bar) (g : Opnd) (tmo : BitVec 5)
  | barsync (h : Hdr) (d : BitVec 7) (bar : Bar) (n : Opnd) (tmo : BitVec 5)
  | barq (h : Hdr) (d : BitVec 7) (bar : Bar) (form : BarqForm)
  | barqReset (h : Hdr) (d : BitVec 7) (bar : Bar)
  | waitn (h : Hdr) (d : BitVec 7) (n : Opnd) (path : CPath) (tmo : BitVec 5)
  | waitk (h : Hdr) (d : BitVec 7) (k : BitVec 3) (tmo : BitVec 5)
  -- engines and matrix
  | cpy (h : Hdr) (d x : BitVec 7) (bar : Option Bar) (dir : CpyDir) (tmo : BitVec 5)
  | bina (h : Hdr) (d : BitVec 7) (x : BitVec 8) (desc : BitVec 7) (ty : Ty) (op : AOp)
  | binr (h : Hdr) (d desc : BitVec 7) (g : Opnd) (reset : Bool)
  | isect (h : Hdr) (d a b : BitVec 8) (c : BitVec 7)
  | mma (h : Hdr) (k : BitVec 3) (x : BitVec 8) (semi : Semi) (idx : Bool) (tile : BitVec 2)
  | mxld (h : Hdr) (k : BitVec 3) (a : Opnd) (stride : BitVec 7) (ty : Ty) (tile : BitVec 2)
  | mxst (h : Hdr) (k : BitVec 3) (a : Opnd) (stride : BitVec 7) (ty : Ty) (rnd : Rnd) (tile : BitVec 2) (rel : Bool)
  | mxz (h : Hdr) (k : BitVec 3) (fill : Fill) (tile : BitVec 2) (rel : Bool)
  | launch (h : Hdr) (d a : BitVec 7) (entry : Option (BitVec 30))
  | vregs (h : Hdr) (d : BitVec 7) (n : Opnd) (tmo : BitVec 5)
  -- scalar
  | sadd (h : Hdr) (d a : BitVec 7) (b : Opnd) (ty : Ty)
  | ssub (h : Hdr) (d a : BitVec 7) (b : Opnd) (ty : Ty)
  | smul (h : Hdr) (d a : BitVec 7) (b : Opnd) (ty : Ty)
  | smin (h : Hdr) (d a : BitVec 7) (b : Opnd) (ty : Ty)
  | smax (h : Hdr) (d a : BitVec 7) (b : Opnd) (ty : Ty)
  | slop3 (h : Hdr) (d a b c : BitVec 7) (ty : Ty) (t : BitVec 8)
  | sshl (h : Hdr) (d a : BitVec 7) (b : Opnd) (ty : Ty)
  | sshr (h : Hdr) (d a : BitVec 7) (b : Opnd) (ty : Ty)
  | slea (h : Hdr) (d a b : BitVec 7) (ty : Ty) (sx : Bool) (sh : BitVec 5)
  | smov (h : Hdr) (d : BitVec 7) (a : Opnd) (ty : Ty)
  | scvt (h : Hdr) (d a : BitVec 7) (dt st : Ty) (sat : Bool)
  | ssetp (h : Hdr) (d : BitVec 3) (a : BitVec 7) (b : Opnd) (ty : Ty) (cond : Cond)
  | ssel (h : Hdr) (d a : BitVec 7) (b : Opnd) (ty : Ty) (p : BitVec 3) (neg : Bool)
  -- privileged
  | trap (h : Hdr) (code : BitVec 20)
  | tret (h : Hdr)
  | mfs (h : Hdr) (d : Opnd) (n : BitVec 8)
  | mts (h : Hdr) (a : Opnd) (n : BitVec 8)
  | mtsExcctl (h : Hdr) (a : Opnd)
  | mtsExccount (h : Hdr) (a : Opnd)
  | mtsExcwin (h : Hdr) (a : Opnd)
  | mtsFaultmask (h : Hdr) (a : Opnd)
  | mtsTrappc (h : Hdr) (a : Opnd)
  | xcinv (h : Hdr) (d x : BitVec 7) (ps : BitVec 2)
  | msgs (h : Hdr) (d x : BitVec 7) (b : Opnd)
  | msgr (h : Hdr) (d x : BitVec 7)
  | halt (h : Hdr)
  -- events: traps taken later, completions and expiries
  | openFaultTrap (p : PathId)
  | matrixTrap (w : WaveId)
  | commitCompletion (op : Nat)
  | abortCompletion (op : Nat)
  | acquireCompletion (op : Nat)
  | strongAccessPerform (op : Nat)
  | atomCompletion (op : Nat) (order : List Nat)
  | arrivalRegister (op : Nat)
  | transactionBytesLand (op : Nat)
  | waitTimeout (p : PathId)
  | yieldExpiry (p : PathId)
  | sleepExpiry (p : PathId)
  | openFetchReturn (op line : Nat) (victim : Option Nat)
  | engineLineRelease (line : Nat)
  | priResponse (die space page : Nat) (ok : Bool)
  | registerLineReturn (w : WaveId) (line : Nat)
  | vregsGrowthMet (p : PathId)
  | waveReserveAgain (w : WaveId)
  | lineRecall (core : CoreId) (line : Nat)
  | deviceUpdateApply (core : CoreId) (home : Nat)
  | cpyIssue (grid block n : Nat)
  | cpyCollectionTimeout (grid block n : Nat)
  | cpyCompletion (grid block n : Nat)
  | binaCompletion (op : Nat)
  | binrReplay (op : Nat)
  | binrCompletion (op : Nat)
  | hearthQueueDispatch (die hearth : Nat)
  | mmaCompletion (die hearth : Nat)
  | mxldCompletion (die hearth : Nat)
  | mxstCompletion (die hearth : Nat) (lines : Nat)
  | mxzCompletion (die hearth : Nat)
  | hearthQuiescent (die hearth groups : Nat)
  | launchAcceptance (op : Nat)
  | launchDependencesMet (launch : Nat)
  | blockAdmit (launch group : Nat) (die : Nat) (homes : List Nat)
  | blockResume (grid group : Nat) (die : Nat) (homes : List Nat)
  | preemption (grid group : Nat)
  | timeSliceExpiry (grid group : Nat)
  | recarve (launch : Nat) (homes : List CoreId)
  | waveEnds (w : WaveId)
  | gridRetire (grid : Nat)
  | excWindowEnd (core : CoreId) (cls : Nat)
  | ceWindowEnd (die counter : Nat)
  | correctedError (die counter : Nat)
  | sramUe (site : UeSite)
  | memoryUe (die line : Nat) (hbm : Bool) (dirty : Bool)
  | link (die other lane : Nat) (retrained : Bool)
  | thermal (die : Nat) (quarters : BitVec 16)
  | contextPageTimeout (w : WaveId)
  | contextPageFreed (w : WaveId)
  -- events: the host and the package
  | powerOnReset (failed : BitVec 4)
  | letterboxWrite (off : Nat) (bytes : List Byte) (hostWrites : List (Nat × Byte))
  | letterboxRead (off len : Nat)
  | sessionOpen (c : Caller) (reply event : RingSpec) (space : Nat) (cls : BitVec 2)
  | sessionClose (c : Caller)
  | launchCall (c : Caller)
  | map (c : Caller) (va pa size count : Nat) (perms : Perms)
  | unmap (c : Caller) (va size count : Nat)
  | migrate (c : Caller) (va home newPa : Nat)
  | memcpy (c : Caller) (src dst : CopyEnd) (bytes : Nat)
  | setSlice (c : Caller) (clocks : Nat)
  | debugHalt (c : Caller) (scope : HaltScope)
  | debugResume (c : Caller) (w : WaveId) (trap : Bool)
  | contextRead (c : Caller) (w : WaveId) (block : Bool) (off bytes buffer : Nat)
  | waveResume (c : Caller) (w : WaveId) (pc : DWord) (mode : Bool)
  | waveEnd (c : Caller) (w : WaveId)
  | coreRetire (c : Caller) (core : CoreId)
  | coreSpare (c : Caller) (core : CoreId)
  | hbmSpare (c : Caller) (die stack channel : Nat)
  | laneRepair (c : Caller) (die other lane : Nat)
  | dieReset (c : Caller) (die : Nat)
  | dieAdmit (c : Caller) (die : Nat)
  | ceSet (c : Caller) (die counter : Nat) (threshold : BitVec 16) (window : Word)
  | power (c : Caller) (die : Nat) (st : Power)
  | powerChangeEffect (die : Nat)
  | fwUpdate (c : Caller) (dies : BitVec 4) (addr len : Nat)
  | fwImageSwitch (die : Nat)
  | attest (c : Caller) (nonce : List Byte) (buffer : Nat)
  | identity (c : Caller)
  | atsInvalidation (space va size count : Nat)
  | dataFrame (addr port : Nat) (hdr : FrameHdr) (va : Nat) (bytes : List Byte)
  | frameResend (n : Nat)
  | replyRingSpace (session : Nat)
  -- events: issue
  | overdue (w : WaveId)
  | fixedLatencyResultLands (w : WaveId) (n : Nat)
  | unassignedOpcode (h : Hdr) (opcode : BitVec 10)
  | codeLineFetch (p : PathId)
  | messageSent (op : Nat)
  | xcinvCompletion (op : Nat)
  | atsTranslationReply (die space page : Nat) (pa : Nat) (perms : Option Perms)
  | peerReplyFrame (n : Nat) (st : Word)
  deriving DecidableEq, Repr

end Sys2Proof
end

