-- ==== Sys2Proof/WellFormed.lean ====
section
/-! DEFINITION. Which instruction terms have an encoding: the kinds, pairs, modifier values and ranges that the entries allow
(R76-R80, R90 steps 4 to 8, and each entry). Events are always well formed. -/

namespace Sys2Proof

/-- A 64-bit type, held in a register pair (R185). -/
def Ty.wide : Ty → Bool
  | .i64 | .n64 | .f64 => true
  | _ => false

/-- An integer type (R80). -/
def Ty.isInt : Ty → Bool
  | .i32 | .n32 | .i64 | .n64 | .i16 | .n16 | .i8 | .n8 => true
  | _ => false

/-- A signed integer type, .I (R80). -/
def Ty.signed : Ty → Bool
  | .i32 | .i64 | .i16 | .i8 => true
  | _ => false

/-- The width of a type in bits (R185, R186). -/
def Ty.bits : Ty → Nat
  | .i64 | .n64 | .f64 => 64
  | .i32 | .n32 | .f32 => 32
  | .i16 | .n16 | .f16 | .bf16 => 16
  | .i8 | .n8 | .e4m3 | .e5m2 => 8
  | .q4 => 4

/-- A register index that may name a value of `n` registers: a multiple of `n` (R76, R330). -/
def alignedTo (n : Nat) (r : Nat) : Bool := r % n == 0

namespace Opnd

/-- Kind 00 or 01: vector or scalar. -/
def vs : Opnd → Bool
  | .v _ | .s _ => true
  | _ => false
/-- Kind 00, 01 or 11. -/
def vsi : Opnd → Bool
  | .v _ | .s _ | .i _ => true
  | _ => false
/-- Kind 01 or 11. -/
def si : Opnd → Bool
  | .s _ | .i _ => true
  | _ => false
/-- Kind 00 or 11. -/
def vi : Opnd → Bool
  | .v _ | .i _ => true
  | _ => false
/-- Whether a register operand is a multiple of `n`; an immediate always is. -/
def al (n : Nat) : Opnd → Bool
  | .v r => alignedTo n r.toNat
  | .s r => alignedTo n r.toNat
  | _ => true
/-- An immediate of operand A: a 10-bit signed value (R77). A register passes. -/
def imm10 : Opnd → Bool
  | .i x => decide ((x.truncate 10).signExtend 30 = x)
  | _ => true
/-- An immediate below `n`. A register passes. -/
def below (n : Nat) : Opnd → Bool
  | .i x => decide (x.toNat < n)
  | _ => true

end Opnd

/-- The registers that a value of this type takes: 2 for 64-bit types (R4). -/
def Ty.regs (t : Ty) : Nat := if t.wide then 2 else 1

/-- A displacement whose slot is at most 9 (R78). -/
def dispOk (d : BitVec 30) : Bool := decide ((d.truncate 4).toNat ≤ 9)

/-- A barrier number within its level (R41). -/
def Bar.ok (b : Bar) : Bool :=
  decide (b.num.toNat < match b.level.toNat with | 0 => 4 | 1 => 16 | 2 => 8 | _ => 4)

/-- The shape of a two-source vector instruction whose sources and destination have type `ty`. -/
def alu2 (d : BitVec 8) (a b : Opnd) (ty : Ty) (imm : Bool) : Bool :=
  alignedTo ty.regs d.toNat && a.vs && a.al ty.regs && (if imm then b.vsi else b.vs) && b.al ty.regs
/-- The shape of a three-source vector instruction (R308). -/
def alu3 (d : BitVec 8) (a b c : Opnd) (ty : Ty) : Bool := alu2 d a b ty false && c.vs && c.al ty.regs
/-- The shape of a one-source vector instruction. -/
def alu1 (d : BitVec 8) (a : Opnd) (td ta : Ty) : Bool := alignedTo td.regs d.toNat && a.vs && a.al ta.regs
/-- The types .N32 and .N64. -/
def Ty.nwd (t : Ty) : Bool := t == .n32 || t == .n64
/-- The types .I32, .N32, .I64 and .N64. -/
def Ty.iwd (t : Ty) : Bool := t.isInt && decide (32 ≤ t.bits)
/-- The types of SETP, WRED and ATOM: the 32-bit and 64-bit integers and floats. -/
def Ty.wd (t : Ty) : Bool := t.iwd || t == .f32 || t == .f64
/-- The types of loads and stores (R330). -/
def Ty.mem (t : Ty) : Bool := !(t == .e4m3 || t == .e5m2 || t == .q4)
/-- .F16 or .BF16. -/
def Ty.half (t : Ty) : Bool := t == .f16 || t == .bf16
/-- Bitwise operations take integers only. -/
def opTy (op : AOp) (t : Ty) : Bool := !((op == .and || op == .or || op == .xor) && (t == .f32 || t == .f64))

/-- The number of elements of a load or store: its size over its type's size, 0 when the size breaks R330. -/
def elems (t : Ty) (size : BitVec 3) : Nat :=
  let sz := 2 ^ size.toNat
  let z := t.bits / 8
  if size.toNat ≤ 4 && t.mem && (sz == z || sz == 2 * z || sz == 4 * z) then sz / z else 0
/-- The registers of a load or store: one for each element, or a pair (R330). -/
def memRegs (t : Ty) (size : BitVec 3) : Nat := elems t size * t.regs

/-- The access group of a load or store: `chk` tells whether .CHK is allowed (R330, R370). -/
def accOk (chk : Bool) (size : BitVec 3) : Acc → Bool
  | .nochk => true
  | .chk p => chk && p != 7
  | .sc s => decide (1 ≤ s.toNat ∧ s.toNat ≤ 4 ∧ size.toNat ≤ 3)

/-- A vector window access. -/
def wacc (d : BitVec 8) (off : Opnd) (t : Ty) (size : BitVec 3) (chk : Bool) (acc : Acc) : Bool :=
  elems t size != 0 && alignedTo (memRegs t size) d.toNat && off.vi && off.below 128 && accOk chk size acc
/-- A scalar window access: at most two elements. -/
def waccs (d : BitVec 7) (off : Opnd) (t : Ty) (size : BitVec 3) (acc : Acc) : Bool :=
  elems t size != 0 && decide (elems t size ≤ 2) && alignedTo (memRegs t size) d.toNat && off.si && off.below 128
    && accOk false size acc
/-- A pantry access (R328). -/
def pacc (d : BitVec 8) (a : Opnd) (t : Ty) (size : BitVec 3) : Bool :=
  elems t size != 0 && alignedTo (memRegs t size) d.toNat && a.vs

/-- The offset of ATOM and RED (R292). -/
def AtomOff.ok : AtomOff → Bool
  | .const n => decide (n.toNat < 128)
  | .reg _ => true

/-- The special registers that MFS reads, by number, and their destination kinds (R334). -/
def sregOk (n : Nat) (d : Opnd) : Bool :=
  if n == 0 then (match d with | .v _ => true | _ => false)
  else if n ≤ 12 || n == 0x10 || (0x18 ≤ n && n ≤ 0x1B) then d.vs
  else if n == 0x0D then d.vs && d.al 2
  else if n == 0x11 || n == 0x12 then (match d with | .s _ => d.al 2 | _ => false)
  else false
/-- The special register numbers of R334. -/
def sregListed (n : Nat) : Bool := n ≤ 0x0D || (0x10 ≤ n && n ≤ 0x12) || (0x18 ≤ n && n ≤ 0x1B)
/-- The width in registers of a special register (R334). -/
def sregRegs (n : Nat) : Nat := if n == 0x0D || n == 0x11 || n == 0x12 then 2 else 1
/-- The numbers of the special registers that have an MTS row of their own in the opcode table. -/
def mtsOwn (n : Nat) : Bool := n == 0x11 || (0x18 ≤ n && n ≤ 0x1B)
/-- The source of MTS: a scalar, or an immediate of operand A. -/
def mtsSrc (n : Nat) (a : Opnd) : Bool := a.si && a.imm10 && a.al (sregRegs n)

/-- Whether an instruction term has an encoding. -/
def Instr.wf : Instr → Bool
  | .nop _ | .join _ | .exit _ | .yield _ | .ifence _ | .tret _ | .halt _ => true
  | .bra _ t => dispOk t
  | .braDual _ t _ js | .braSplit _ t _ js => dispOk t && decide (js.toNat ≤ 9)
  | .brx _ a | .ret _ a => alignedTo 2 a.toNat
  | .call _ d t => alignedTo 2 d.toNat && t.si && t.al 2 && (match t with | .i x => dispOk x | _ => true)
  | .sleep _ n => n.si
  | .elect _ _ _ => true
  | .vote _ .ballot d _ => d.vs
  | .vote _ _ d _ => match d with | .p _ => true | _ => false
  | .iadd _ d a b ty _ | .isub _ d a b ty _ | .imul _ d a b ty _ => ty.isInt && alu2 d a b ty true
  | .imulhi _ d a b ty => ty.iwd && alu2 d a b ty true
  | .imin _ d a b ty | .imax _ d a b ty => ty.isInt && alu2 d a b ty true
  | .iabs _ d a ty _ => ty.signed && alu1 d a ty ty
  | .imad _ d a b c ty _ => ty.iwd && alu3 d a b c ty
  | .isad _ d a b c ty _ => (ty == .i32 || ty == .n32) && alu3 d a b c ty
  | .idot4 _ d a b c ty _ _ => (ty == .i32 || ty == .n32) && alu3 d a b c ty
  | .lop3 _ d a b c ty _ => ty.nwd && alu3 d a b c ty
  | .shl _ d a b ty | .shr _ d a b ty => ty.nwd && alu1 d a ty ty && b.vsi
  | .shra _ d a b ty => (ty == .i32 || ty == .i64) && alu1 d a ty ty && b.vsi
  | .rot _ d a b ty _ => ty.nwd && alu1 d a ty ty && b.vsi
  | .shf _ d a b c _ => alu3 d a b c .n32
  | .bfe _ d a b ty => ty.iwd && alu1 d a ty ty && b.vsi && b.below 65536
  | .bfi _ d a b ty => ty.nwd && alu1 d a ty ty && b.vsi && b.below 65536
  | .popc _ _ a ty | .clz _ _ a ty => ty.nwd && a.vs && a.al ty.regs
  | .brev _ d a ty => ty.nwd && alu1 d a ty ty
  | .prmt _ _ a b n =>
    a.vs && b.vs && (List.range 4).all (fun j => decide ((n.extractLsb' (4 * j) 4).toNat ≤ 9))
  | .lea _ d a b ty sx _ => ty.nwd && alu1 d a ty ty && b.vs && !(sx && ty == .n32)
  | .mov _ d a ty => ty.nwd && alignedTo ty.regs d.toNat && a.vsi && a.al ty.regs && a.imm10
  | .movi _ _ _ => true
  | .shfl _ d a b ty _ _ => ty.nwd && alignedTo ty.regs d.toNat && alignedTo ty.regs a.toNat && b.vsi && b.below 64
  | .readlane _ d a b ty => ty.nwd && alignedTo ty.regs d.toNat && alignedTo ty.regs a.toNat && b.si && b.below 64
  | .wred _ d a ty rnd op =>
    ty.wd && d.vs && d.al ty.regs && alignedTo ty.regs a.toNat && opTy op ty && op != .exch && op != .cas
      && (rnd == .rn || (op == .add && !ty.isInt))
  | .wscan _ d a ty rnd op _ =>
    ty.wd && alignedTo ty.regs d.toNat && alignedTo ty.regs a.toNat && opTy op ty && op != .exch && op != .cas
      && (rnd == .rn || (op == .add && !ty.isInt))
  | .setp _ _ a b ty cond =>
    ty.wd && a.vs && a.al ty.regs && b.vsi && b.al ty.regs && !((cond == .num || cond == .nan) && ty.isInt)
  | .plop _ _ _ _ _ _ => true
  | .sel _ d a b ty _ _ => ty.nwd && alu2 d a b ty true
  | .fadd _ d a b _ _ _ | .fsub _ d a b _ _ _ | .fmul _ d a b _ _ _ => alu2 d a b .f32 true
  | .ffma _ d a b c _ _ _ _ => alu3 d a b c .f32
  | .fmin _ d a b | .fmax _ d a b => alu2 d a b .f32 true
  | .frcp _ d a _ | .fsqrt _ d a _ | .frnd _ d a _ => alu1 d a .f32 .f32
  | .frsq _ d a | .fexp2 _ d a | .flog2 _ d a | .fsin _ d a | .fcos _ d a => alu1 d a .f32 .f32
  | .fscale _ d a b _ => alu2 d a b .f32 true
  | .fclass _ _ a ty => (ty == .f32 || ty == .f64) && a.vs && a.al ty.regs
  | .fdot2 _ d a b c ty _ _ _ _ => ty.half && alu3 d a b c .f32
  | .dadd _ d a b _ _ _ | .dmul _ d a b _ _ _ => alu2 d a b .f64 true
  | .dfma _ d a b c _ _ _ _ => alu3 d a b c .f64
  | .hadd2 _ d a b ty rnd _ _ op => ty.half && alu2 d a b ty false && (op == .add || rnd == .rn)
  | .hmul2 _ d a b ty _ _ _ => ty.half && alu2 d a b ty false
  | .hfma2 _ d a b c ty _ _ _ _ => ty.half && alu3 d a b c ty
  | .cvt _ d a dt st rnd sat =>
    dt != .q4 && st != .q4 && alu1 d a dt st && !(dt.isInt && st.isInt && rnd != .rn) && !(sat && !(dt.isInt && st.isInt))
  | .qpack _ _ a b st => (st == .f32 || st == .bf16) && alignedTo (if st == .f32 then 8 else 4) a.toNat && b.vsi && b.below 256
  | .qunpack _ d a b dt =>
    (dt == .f32 || dt == .bf16) && alignedTo (if dt == .f32 then 8 else 4) d.toNat && a.vs && b.vsi && b.below 256
  | .open _ _ a _ _ _ _ _ => a.vs && a.al 2
  | .close _ _ | .reopen _ _ _ _ | .reopenTrap _ _ _ => true
  | .wquery _ d _ addr => !addr || alignedTo 2 d.toNat
  | .ldw _ d _ off ty size acc => wacc d off ty size true acc
  | .stw _ d _ off ty size acc => wacc d off ty size false acc
  | .ldws _ d _ off ty size acc | .stws _ d _ off ty size acc => waccs d off ty size acc
  | .ldl _ d a _ ty size | .stl _ d a _ ty size => pacc d a ty size
  | .cstw _ d _ off ty _ => ty.mem && alignedTo ty.regs d.toNat && off.si && off.below 128
  | .commit _ _ level strict =>
    decide (1 ≤ level.toNat ∧ level.toNat ≤ 4) &&
      (match strict with | none => true | some q => decide (level.toNat ≤ 2) && alignedTo 2 q.toNat)
  | .abort _ _ level => decide (level.toNat ≤ 2)
  | .acquire _ _ level => decide (1 ≤ level.toNat ∧ level.toNat ≤ 4)
  | .atom _ d _ off b ty op scope _ =>
    ty.wd && opTy op ty && alignedTo ty.regs d.toNat && decide (scope.toNat ≤ 4) && off.ok
      && alignedTo (if op == .cas && ty.wide then 4 else ty.regs) b.toNat
  | .red _ _ off b ty op scope =>
    ty.wd && opTy op ty && op != .exch && op != .cas && decide (scope.toNat ≤ 4) && off.ok && alignedTo ty.regs b.toNat
  | .arrive _ d bar n | .barsync _ d bar n _ =>
    alignedTo 2 d.toNat && bar.ok && n.si && (match n with | .i x => decide (1 ≤ x.toNat ∧ x.toNat ≤ 36864) | _ => true)
  | .waitb _ _ bar g _ => bar.ok && g.si
  | .barq _ d bar _ | .barqReset _ d bar => alignedTo 2 d.toNat && bar.ok
  | .waitn _ _ n _ _ => n.si && n.imm10 && n.below 512
  | .waitk _ _ _ _ => true
  | .cpy _ _ x bar _ _ =>
    alignedTo 2 x.toNat && (match bar with | none => true | some b => b.ok && (b.level == 1 || b.level == 2))
  | .bina _ _ x desc ty op =>
    ty.wd && opTy op ty && op != .exch && op != .cas && alignedTo 4 x.toNat && alignedTo 2 desc.toNat
  | .binr _ _ desc g _ => alignedTo 2 desc.toNat && g.si
  | .isect _ _ _ _ _ => true
  | .mma _ _ x _ _ _ => alignedTo 4 x.toNat
  | .mxld _ _ a _ ty _ => (ty == .f32 || ty.half || ty == .e4m3 || ty == .e5m2) && a.vs && a.al 2
  | .mxst _ _ a _ ty _ _ _ => (ty == .f32 || ty.half || ty == .e4m3 || ty == .e5m2) && a.vs && a.al 2
  | .mxz _ _ fill _ rel => !(rel && fill != .zero)
  | .launch _ _ a entry => alignedTo 2 a.toNat && (match entry with | none => true | some x => dispOk x)
  | .vregs _ _ n _ =>
    n.si && n.imm10 && (match n with | .i x => decide (8 ≤ x.toNat ∧ x.toNat ≤ 256) && x.toNat % 8 == 0 | _ => true)
  | .sadd _ d a b ty | .ssub _ d a b ty | .smul _ d a b ty | .smin _ d a b ty | .smax _ d a b ty =>
    ty.iwd && alignedTo ty.regs d.toNat && alignedTo ty.regs a.toNat && b.si && b.al ty.regs
  | .slop3 _ d a b c ty _ =>
    ty.nwd && alignedTo ty.regs d.toNat && alignedTo ty.regs a.toNat && alignedTo ty.regs b.toNat && alignedTo ty.regs c.toNat
  | .sshl _ d a b ty => ty.nwd && alignedTo ty.regs d.toNat && alignedTo ty.regs a.toNat && b.si
  | .sshr _ d a b ty => ty.iwd && alignedTo ty.regs d.toNat && alignedTo ty.regs a.toNat && b.si
  | .slea _ d a _ ty sx _ => ty.nwd && alignedTo ty.regs d.toNat && alignedTo ty.regs a.toNat && !(sx && ty == .n32)
  | .smov _ d a ty => ty.nwd && alignedTo ty.regs d.toNat && a.si && a.al ty.regs
  | .scvt _ d a dt st sat =>
    dt != .q4 && st != .q4 && alignedTo dt.regs d.toNat && alignedTo st.regs a.toNat && !(sat && !(dt.isInt && st.isInt))
  | .ssetp _ _ a b ty cond =>
    ty.wd && alignedTo ty.regs a.toNat && b.si && b.al ty.regs && !((cond == .num || cond == .nan) && ty.isInt)
  | .ssel _ d a b ty _ _ => ty.nwd && alignedTo ty.regs d.toNat && alignedTo ty.regs a.toNat && b.si && b.al ty.regs
  | .trap _ _ => true
  | .mfs _ d n => sregOk n.toNat d
  | .mts _ a n => sregListed n.toNat && !mtsOwn n.toNat && mtsSrc n.toNat a
  | .mtsExcctl _ a | .mtsExccount _ a | .mtsExcwin _ a | .mtsFaultmask _ a => mtsSrc 0x18 a
  | .mtsTrappc _ a => mtsSrc 0x11 a
  | .xcinv _ _ x _ => alignedTo 4 x.toNat
  | .msgs _ _ x b => alignedTo 16 x.toNat && b.si
  | .msgr _ d x => alignedTo 2 d.toNat && alignedTo 16 x.toNat
  | _ => true

/-- Whether a constructor is an instruction with an encoding, not an event. -/
def Instr.isEvent : Instr → Bool
  | .openFaultTrap _ | .matrixTrap _ | .commitCompletion _ | .abortCompletion _ | .acquireCompletion _
  | .strongAccessPerform _ | .atomCompletion _ _ | .arrivalRegister _ | .transactionBytesLand _ | .waitTimeout _
  | .yieldExpiry _ | .sleepExpiry _ | .openFetchReturn _ _ _ | .engineLineRelease _ | .priResponse _ _ _ _
  | .registerLineReturn _ _ | .vregsGrowthMet _ | .waveReserveAgain _ | .lineRecall _ _ | .deviceUpdateApply _ _
  | .cpyIssue _ _ _ | .cpyCollectionTimeout _ _ _ | .cpyCompletion _ _ _ | .binaCompletion _ | .binrReplay _
  | .binrCompletion _ | .hearthQueueDispatch _ _ | .mmaCompletion _ _ | .mxldCompletion _ _ | .mxstCompletion _ _ _
  | .mxzCompletion _ _ | .hearthQuiescent _ _ _ | .launchAcceptance _ | .launchDependencesMet _ | .blockAdmit _ _ _ _
  | .blockResume _ _ _ _ | .preemption _ _ | .timeSliceExpiry _ _ | .recarve _ _ | .waveEnds _ | .gridRetire _
  | .excWindowEnd _ _ | .ceWindowEnd _ _ | .correctedError _ _ | .sramUe _ | .memoryUe _ _ _ _ | .link _ _ _ _
  | .thermal _ _ | .contextPageTimeout _ | .contextPageFreed _ | .powerOnReset _ | .letterboxWrite _ _ _
  | .letterboxRead _ _ | .sessionOpen _ _ _ _ _ | .sessionClose _ | .launchCall _ | .map _ _ _ _ _ _ | .unmap _ _ _ _
  | .migrate _ _ _ _ | .memcpy _ _ _ _ | .setSlice _ _ | .debugHalt _ _ | .debugResume _ _ _ | .contextRead _ _ _ _ _ _
  | .waveResume _ _ _ _ | .waveEnd _ _ | .coreRetire _ _ | .coreSpare _ _ | .hbmSpare _ _ _ _ | .laneRepair _ _ _ _
  | .dieReset _ _ | .dieAdmit _ _ | .ceSet _ _ _ _ _ | .power _ _ _ | .powerChangeEffect _ | .fwUpdate _ _ _ _
  | .fwImageSwitch _ | .attest _ _ _ | .identity _ | .atsInvalidation _ _ _ _ | .dataFrame _ _ _ _ _ | .frameResend _
  | .replyRingSpace _ | .overdue _ | .fixedLatencyResultLands _ _ | .codeLineFetch _ | .messageSent _ | .xcinvCompletion _
  | .atsTranslationReply _ _ _ _ _ | .peerReplyFrame _ _ | .unassignedOpcode _ _ => true
  | _ => false

/-- A well-formed instruction: a term with an encoding, and no event. -/
def WellFormed (i : Instr) : Prop := i.isEvent = false ∧ i.wf = true

end Sys2Proof
end

