-- ==== Sys2Proof/Decode.lean ====
section
/-! DEFINITION. The 96-bit word: its fields, the checks of R90 steps 2 and 4 to 8, the decoder, and after it the encoder,
both written from the encoding tables of the entries (R71-R80, R90-R92). -/

namespace Sys2Proof

/-- The fields of a word (R75). -/
structure Fields where
  op   : BitVec 10
  gneg : Bool
  gp   : BitVec 3
  d    : BitVec 12
  a    : BitVec 12
  b    : BitVec 12
  mods : BitVec 14
  imm  : BitVec 20
  hres : BitVec 4
  ru   : BitVec 3
  y    : Bool
  st   : BitVec 4
  deriving DecidableEq, Repr

/-- R75: the fields of a word. -/
def Fields.ofWord (w : IWord) : Fields where
  op   := w.extractLsb' 86 10
  gneg := w.getLsbD 85
  gp   := w.extractLsb' 82 3
  d    := w.extractLsb' 70 12
  a    := w.extractLsb' 58 12
  b    := w.extractLsb' 46 12
  mods := w.extractLsb' 32 14
  imm  := w.extractLsb' 12 20
  hres := w.extractLsb' 8 4
  ru   := w.extractLsb' 5 3
  y    := w.getLsbD 4
  st   := w.extractLsb' 0 4

/-- R75: the word of its fields. -/
def Fields.toWord (f : Fields) : IWord :=
  f.op ++ BitVec.ofBool f.gneg ++ f.gp ++ f.d ++ f.a ++ f.b ++ f.mods ++ f.imm ++ f.hres ++ f.ru ++ BitVec.ofBool f.y ++ f.st

/-- The operand field that a check names (R90, R258): the code is FIELD. -/
inductive Fld where
  | none | d | a | b
  deriving DecidableEq, Repr

/-- FIELD of R258. -/
def Fld.code : Fld → Nat
  | .none => 0 | .d => 1 | .a => 2 | .b => 3

/-- The sub-codes of ILLEGAL (R90). -/
inductive Sub where
  | trailer | opcode | reservedBit | operandKind | modifier | allocation | pair | operandRange
  deriving DecidableEq, Repr

/-- The codes of R90's last column. -/
def Sub.code : Sub → Nat
  | .trailer => 1 | .opcode => 2 | .reservedBit => 3 | .operandKind => 4 | .modifier => 5 | .allocation => 6
  | .pair => 7 | .operandRange => 9

/-- Why a word is no instruction: the sub-code and the operand field (R90). -/
structure DecodeErr where
  sub   : Sub
  field : Fld
  deriving DecidableEq, Repr

/-- The kinds and classes of operand fields (R76). -/
inductive Kind where
  | v | s | w | p | k | b | i
  deriving DecidableEq, Repr

/-- R76: the kind and class of an operand field. -/
def kindOf (x : BitVec 12) : Kind :=
  match (x.extractLsb' 10 2).toNat with
  | 0 => .v
  | 1 => .s
  | 2 => match (x.extractLsb' 8 2).toNat with | 0 => .w | 1 => .p | 2 => .k | _ => .b
  | _ => .i

/-- R76: whether the index bits that must be zero are zero. -/
def indexZeroOk (x : BitVec 12) : Bool :=
  match kindOf x with
  | .v => x.extractLsb' 8 2 == 0
  | .s => x.extractLsb' 7 3 == 0
  | .w => x.extractLsb' 4 4 == 0
  | .p | .k => x.extractLsb' 3 5 == 0
  | .b | .i => true

/-- What an entry accepts in an operand field: its kinds (none: the field must be 0x000), the multiple that a register index
must be of, and whether 0x000 is accepted beside the kinds. -/
structure Slot where
  kinds : List Kind := []
  mult  : Nat := 1
  zero  : Bool := false

/-- What an entry accepts in a word: its operand slots, the modifier bits and the immediate bits it assigns (all of the latter
where operand B is an immediate that it accepts, or may be nothing else), whether the modifier values are allowed (step 6), the first failure of step 8, and a further
failure of step 4. -/
structure Fmt where
  d   : Slot := {}
  a   : Slot := {}
  b   : Slot := {}
  c   : Option Slot := none
  mm  : Nat := 0
  im  : Nat := 0
  mok : Bool := true
  rng : Option Fld := none
  res : Option Fld := none

/-- A modifier group: `n` bits from bit 32 + `lo` of the word. -/
def Fields.m (f : Fields) (lo n : Nat) : Nat := (f.mods.extractLsb' lo n).toNat
/-- A group of the immediate field: `n` bits from bit 12 + `lo` of the word. -/
def Fields.im (f : Fields) (lo n : Nat) : Nat := (f.imm.extractLsb' lo n).toNat
/-- R77: the 30-bit value of operand B. -/
def Fields.bval (f : Fields) : BitVec 30 := f.b.extractLsb' 0 10 ++ f.imm

/-- R80: the type codes. -/
def Ty.ofCode : Nat → Option Ty
  | 0 => some .i32 | 1 => some .n32 | 2 => some .i64 | 3 => some .n64 | 4 => some .i16 | 5 => some .n16 | 6 => some .i8
  | 7 => some .n8 | 8 => some .f32 | 9 => some .f64 | 10 => some .f16 | 11 => some .bf16 | 12 => some .e4m3
  | 13 => some .e5m2 | 14 => some .q4 | _ => none
/-- R80: the code of a type. -/
def Ty.code : Ty → Nat
  | .i32 => 0 | .n32 => 1 | .i64 => 2 | .n64 => 3 | .i16 => 4 | .n16 => 5 | .i8 => 6 | .n8 => 7 | .f32 => 8 | .f64 => 9
  | .f16 => 10 | .bf16 => 11 | .e4m3 => 12 | .e5m2 => 13 | .q4 => 14
/-- R80: the rounding codes. -/
def Rnd.ofCode : Nat → Rnd
  | 0 => .rn | 1 => .rz | 2 => .ru | _ => .rd
/-- R80: the code of a rounding. -/
def Rnd.code : Rnd → Nat
  | .rn => 0 | .rz => 1 | .ru => 2 | .rd => 3
/-- R292: the operation codes. -/
def AOp.ofCode : Nat → AOp
  | 0 => .add | 1 => .min | 2 => .max | 3 => .and | 4 => .or | 5 => .xor | 6 => .exch | _ => .cas
/-- R292: the code of an operation. -/
def AOp.code : AOp → Nat
  | .add => 0 | .min => 1 | .max => 2 | .and => 3 | .or => 4 | .xor => 5 | .exch => 6 | .cas => 7
/-- R358: the condition codes. -/
def Cond.ofCode : Nat → Cond
  | 0 => .eq | 1 => .ne | 2 => .lt | 3 => .le | 4 => .gt | 5 => .ge | 6 => .num | _ => .nan
/-- R358: the code of a condition. -/
def Cond.code : Cond → Nat
  | .eq => 0 | .ne => 1 | .lt => 2 | .le => 3 | .gt => 4 | .ge => 5 | .num => 6 | .nan => 7
/-- R360: the mode codes. -/
def ShflMode.ofCode : Nat → ShflMode
  | 0 => .idx | 1 => .up | 2 => .down | _ => .xor
/-- R360: the code of a mode. -/
def ShflMode.code : ShflMode → Nat
  | .idx => 0 | .up => 1 | .down => 2 | .xor => 3
/-- R375: the code of a mode. -/
def VoteMode.code : VoteMode → Nat
  | .any => 0 | .all => 1 | .uni => 2 | .ballot => 3
/-- R375: the mode codes. -/
def VoteMode.ofCode : Nat → VoteMode
  | 0 => .any | 1 => .all | 2 => .uni | _ => .ballot
/-- R238: the path codes. -/
def CPath.ofCode : Nat → CPath
  | 0 => .open | 1 => .cpy | 2 => .bin | _ => .atom
/-- R238: the code of a path. -/
def CPath.code : CPath → Nat
  | .open => 0 | .cpy => 1 | .bin => 2 | .atom => 3
/-- R295: the form codes. -/
def BarqForm.ofCode : Nat → BarqForm
  | 0 => .gen | 1 => .state | _ => .pend
/-- R295: the code of a form. -/
def BarqForm.code : BarqForm → Nat
  | .gen => 0 | .state => 1 | .pend => 2
/-- R230: the direction codes. -/
def CpyDir.ofCode : Nat → CpyDir
  | 0 => .mm | 1 => .mp | _ => .pm
/-- R230: the code of a direction. -/
def CpyDir.code : CpyDir → Nat
  | .mm => 0 | .mp => 1 | .pm => 2
/-- R212: the semiring codes. -/
def Semi.ofCode : Nat → Semi
  | 0 => .plus | 1 => .minPlus | 2 => .maxPlus | 3 => .maxTimes | _ => .orAnd
/-- R212: the code of a semiring. -/
def Semi.code : Semi → Nat
  | .plus => 0 | .minPlus => 1 | .maxPlus => 2 | .maxTimes => 3 | .orAnd => 4
/-- R219: the fill codes. -/
def Fill.ofCode : Nat → Fill
  | 0 => .zero | 1 => .pinf | _ => .ninf
/-- R219: the code of a fill. -/
def Fill.code : Fill → Nat
  | .zero => 0 | .pinf => 1 | .ninf => 2
/-- R319: the operation codes. -/
def H2Op.ofCode : Nat → H2Op
  | 0 => .add | 1 => .min | _ => .max
/-- R319: the code of an operation. -/
def H2Op.code : H2Op → Nat
  | .add => 0 | .min => 1 | .max => 2

/-- The type group [35:32]; .I32 stands where the code is reserved, which step 6 refuses. -/
def Fields.ty (f : Fields) : Ty := (Ty.ofCode (f.m 0 4)).getD .i32
/-- The second type group of CVT, QPACK and QUNPACK, [41:38] (R306, R347). -/
def Fields.sty (f : Fields) : Ty := (Ty.ofCode (f.m 6 4)).getD .i32
/-- Whether the type group holds a type that `p` accepts. -/
def Fields.tyIs (f : Fields) (p : Ty → Bool) : Bool := (Ty.ofCode (f.m 0 4)).any p
/-- Whether the second type group holds a type that `p` accepts. -/
def Fields.styIs (f : Fields) (p : Ty → Bool) : Bool := (Ty.ofCode (f.m 6 4)).any p


/-- A vector slot, a multiple of `n`. -/
def slV (n : Nat) : Slot := { kinds := [.v], mult := n }
/-- A scalar slot, a multiple of `n`. -/
def slS (n : Nat) : Slot := { kinds := [.s], mult := n }
/-- A vector or scalar slot. -/
def slVS (n : Nat) : Slot := { kinds := [.v, .s], mult := n }
/-- A vector, scalar or immediate slot. -/
def slVSI (n : Nat) : Slot := { kinds := [.v, .s, .i], mult := n }
/-- A scalar or immediate slot. -/
def slSI (n : Nat) : Slot := { kinds := [.s, .i], mult := n }
/-- A predicate slot. -/
def slP : Slot := { kinds := [.p] }
/-- A window slot. -/
def slW : Slot := { kinds := [.w] }
/-- A token slot. -/
def slK : Slot := { kinds := [.k] }
/-- A barrier slot. -/
def slB : Slot := { kinds := [.b] }
/-- An immediate slot. -/
def slI : Slot := { kinds := [.i] }
/-- Step 8: a displacement in operand B whose slot exceeds 9 (R78). -/
def Fields.dispRng (f : Fields) : Option Fld := if (f.imm.extractLsb' 0 4).toNat ≤ 9 then none else some .b
/-- Step 8: an immediate of operand B that does not lie from `lo` to `hi`. -/
def Fields.bRng (f : Fields) (lo hi : Nat) : Option Fld :=
  if kindOf f.b = .i ∧ ¬(lo ≤ f.bval.toNat ∧ f.bval.toNat ≤ hi) then some .b else none
/-- Step 8: a barrier number beyond its level (R41). -/
def barRng (x : BitVec 12) (fl : Fld) : Option Fld :=
  if kindOf x = .b ∧ (Bar.mk (x.extractLsb' 6 2) (x.extractLsb' 0 6)).ok = false then some fl else none

/-- The two-source vector mould: types that `p` accepts, sources and destination of the type (R321, R310 and others). -/
def fAlu2 (f : Fields) (p : Ty → Bool) (mm : Nat) (mok : Bool) (imm : Bool) : Fmt :=
  { d := slV f.ty.regs, a := slVS f.ty.regs, b := if imm then slVSI f.ty.regs else slVS f.ty.regs
    mm := 0xF ||| mm, mok := f.tyIs p && mok }
/-- The three-source vector mould (R308). -/
def fAlu3 (f : Fields) (p : Ty → Bool) (mm : Nat) (mok : Bool) : Fmt :=
  { fAlu2 f p mm mok false with c := some (slVS f.ty.regs), im := 0x3FF }
/-- The one-source vector mould. -/
def fAlu1 (f : Fields) (p : Ty → Bool) (mm : Nat) (mok : Bool) : Fmt :=
  { d := slV f.ty.regs, a := slVS f.ty.regs, mm := 0xF ||| mm, mok := f.tyIs p && mok }
/-- The vector shifts: an amount of 32 bits in B (R361). -/
def fShift (f : Fields) (p : Ty → Bool) (mm : Nat) : Fmt :=
  { d := slV f.ty.regs, a := slVS f.ty.regs, b := slVSI 1, mm := 0xF ||| mm, mok := f.tyIs p }
/-- Whether a type is .F32. -/
def isF32 (t : Ty) : Bool := t == .f32
/-- Whether a type is .F64. -/
def isF64 (t : Ty) : Bool := t == .f64
/-- The loads and stores through a window (R330, R370). -/
def fWin (f : Fields) (scalar chk : Bool) : Fmt :=
  let n := memRegs f.ty (f.mods.extractLsb' 4 3)
  let e := elems f.ty (f.mods.extractLsb' 4 3)
  let acc := f.m 7 2
  { d := if scalar then slS n else slV n, a := slW, b := if scalar then slSI 1 else { kinds := [.v, .i] }
    mm := if acc = 2 ∨ (acc = 1 ∧ chk) then 0xFFF else 0x1FF
    mok := f.tyIs Ty.mem && e != 0 && (!scalar || decide (e ≤ 2)) &&
      (match acc with
       | 0 => true
       | 1 => chk && f.m 9 3 != 7
       | 2 => decide (1 ≤ f.m 9 3 ∧ f.m 9 3 ≤ 4) && decide (f.m 4 3 ≤ 3)
       | _ => false)
    rng := f.bRng 0 127 }
/-- The pantry accesses (R328, R369). -/
def fPan (f : Fields) : Fmt :=
  { d := slV (memRegs f.ty (f.mods.extractLsb' 4 3)), a := slVS 1, im := 0xFFFFF, mm := 0x7F
    mok := f.tyIs Ty.mem && elems f.ty (f.mods.extractLsb' 4 3) != 0 }
/-- ATOM and RED (R292, R350). -/
def fAtom (f : Fields) (red : Bool) : Fmt :=
  let op := f.m 4 4
  { d := if red then {} else slV f.ty.regs, a := slW
    b := slV (if op = 7 ∧ f.ty.wide then 4 else f.ty.regs)
    im := 0x1FF, mm := if red then 0x7FF else 0x3FFF
    mok := f.tyIs Ty.wd && decide (op ≤ if red then 5 else 7) && opTy (AOp.ofCode op) f.ty && decide (f.m 8 3 ≤ 4)
    rng := if f.im 8 1 = 0 ∧ 127 < f.im 0 8 then some .a else none }
/-- The scalar arithmetic mould (R355). -/
def fScal (f : Fields) : Fmt :=
  { d := slS f.ty.regs, a := slS f.ty.regs, b := slSI f.ty.regs, mm := 0xF, mok := f.tyIs Ty.iwd }
/-- SETP and SSETP: whether a condition suits the type (R358). -/
def condOk (f : Fields) : Bool := f.tyIs Ty.wd && !(decide (6 ≤ f.m 4 3) && f.ty.isInt)
/-- The types of MXLD and MXST (R219). -/
def mxTy (t : Ty) : Bool := t == .f32 || t.half || t == .e4m3 || t == .e5m2

/-- What the entry of an opcode accepts in a word; none for an unassigned opcode (R92). Where the JOIN slot of BRA.DUAL or BRA.SPLIT exceeds 9,
R90 and R298 name no operand field for it: the model names D (DESIGN CHOICE, log entry 86). A COMMIT.STRICT needs its pair in A: R154 does
not say whether 0x000 may stand there (DEDUCED, log entry 103). -/
def fmt (f : Fields) : Option Fmt :=
  match f.op.toNat with
  | 0x001 | 0x006 | 0x007 | 0x008 | 0x205 | 0x2C1 | 0x2C7 => some {}
  | 0x002 =>
    let hint := f.m 0 2
    some { d := if hint = 1 ∨ hint = 2 then slI else {}, b := slI, mm := if hint = 0 ∨ hint = 3 then 3 else 0xF3,
           mok := decide (hint ≠ 3), rng := if (hint = 1 ∨ hint = 2) ∧ 9 < f.m 4 4 then some .d else f.dispRng }
  | 0x003 | 0x005 => some { a := slS 2 }
  | 0x004 => some { d := slS 2, b := slSI 2, rng := if kindOf f.b = .i then f.dispRng else none }
  | 0x009 => some { b := slSI 1 }
  | 0x00A => some { d := slP, a := if f.m 0 1 = 1 then slS 1 else {}, mm := 1 }
  | 0x00B => some { d := if f.m 0 2 = 3 then slVS 1 else slP, a := slP, mm := 3 }
  | 0x040 | 0x041 | 0x042 => some (fAlu2 f Ty.isInt 0x10 true true)
  | 0x043 => some (fAlu2 f Ty.iwd 0x10 (f.m 4 1 == 0) true)
  | 0x044 => some (fAlu3 f Ty.iwd 0x10 true)
  | 0x045 | 0x046 => some (fAlu2 f Ty.isInt 0x10 (f.m 4 1 == 0) true)
  | 0x047 => some (fAlu1 f Ty.signed 0x10 true)
  | 0x048 => some (fAlu3 f (fun t => t == .i32 || t == .n32) 0x10 true)
  | 0x049 => some (fAlu3 f (fun t => t == .i32 || t == .n32) 0xD0 true)
  | 0x04A => some { fAlu3 f Ty.nwd 0 true with im := 0x3FFFF }
  | 0x04B | 0x04C => some (fShift f Ty.nwd 0)
  | 0x04D => some (fShift f (fun t => t == .i32 || t == .i64) 0)
  | 0x04E => some (fShift f Ty.nwd 0x10)
  | 0x04F => some (fAlu3 f (fun t => t == .n32) 0x10 true)
  | 0x050 => some { fShift f Ty.iwd 0 with rng := f.bRng 0 65535 }
  | 0x051 => some { fShift f Ty.nwd 0 with rng := f.bRng 0 65535 }
  | 0x052 | 0x053 => some { fAlu1 f Ty.nwd 0 true with d := slV 1 }
  | 0x054 => some (fAlu1 f Ty.nwd 0 true)
  | 0x055 =>
    some { d := slV 1, a := slVS 1, b := slVS 1, im := 0xFFFF
           rng := if (List.range 4).all (fun j => decide (f.im (4 * j) 4 ≤ 9)) then none else some .none }
  | 0x056 =>
    some { d := slV f.ty.regs, a := slVS f.ty.regs, b := slVS 1, mm := 0x3FF
           mok := f.tyIs Ty.nwd && !(f.m 4 1 == 1 && f.ty == .n32) }
  | 0x057 => some { d := slV f.ty.regs, a := slVSI f.ty.regs, mm := 0xF, mok := f.tyIs Ty.nwd }
  | 0x058 => some { d := slV 1, a := slI, b := slI, res := if kindOf f.a = .i ∧ f.a.extractLsb' 2 8 ≠ 0 then some .a else none }
  | 0x059 =>
    some { d := slV f.ty.regs, a := slV f.ty.regs, b := slVSI 1, mm := 0x7CF, mok := f.tyIs Ty.nwd, rng := f.bRng 0 63 }
  | 0x05A => some { d := slS f.ty.regs, a := slV f.ty.regs, b := slSI 1, mm := 0xF, mok := f.tyIs Ty.nwd, rng := f.bRng 0 63 }
  | 0x05B | 0x05C =>
    let scan := f.op == 0x05C
    some { d := if scan then slV f.ty.regs else slVS f.ty.regs, a := slV f.ty.regs, mm := if scan then 0x3FF else 0x1FF
           mok := f.tyIs Ty.wd && decide (f.m 6 3 ≤ 5) && opTy (AOp.ofCode (f.m 6 3)) f.ty &&
             (f.m 4 2 == 0 || (f.m 6 3 == 0 && !f.ty.isInt)) }
  | 0x05D => some { d := slP, a := slVS f.ty.regs, b := slVSI f.ty.regs, mm := 0x7F, mok := condOk f }
  | 0x05E => some { d := slP, a := slP, b := slP, im := 0xFF007 }
  | 0x05F => some (fAlu2 f Ty.nwd 0xF0 true true)
  | 0x0C0 | 0x0C1 | 0x0C2 => some (fAlu2 f isF32 0xF0 true true)
  | 0x0C3 => some (fAlu3 f isF32 0x1F0 true)
  | 0x0C4 | 0x0C5 => some (fAlu2 f isF32 0 true true)
  | 0x0C6 | 0x0C8 => some (fAlu1 f isF32 0x30 true)
  | 0x0C7 | 0x0C9 | 0x0CA | 0x0CB | 0x0CC => some (fAlu1 f isF32 0x30 (f.m 4 2 == 0))
  | 0x0CD => some { fShift f isF32 0x30 with b := slVSI 1 }
  | 0x0CE => some (fAlu1 f isF32 0x30 true)
  | 0x0CF => some { fAlu1 f (fun t => t == .f32 || t == .f64) 0 true with d := slV 1 }
  | 0x0D0 => some { fAlu3 f Ty.half 0x1F0 true with d := slV 1 }
  | 0x0D1 | 0x0D2 => some (fAlu2 f isF64 0xF0 true true)
  | 0x0D3 => some (fAlu3 f isF64 0x1F0 true)
  | 0x0D4 => some (fAlu2 f Ty.half 0x6F0 (decide (f.m 9 2 ≤ 2) && (f.m 9 2 == 0 || f.m 4 2 == 0)) false)
  | 0x0D5 => some (fAlu2 f Ty.half 0xF0 true false)
  | 0x0D6 => some (fAlu3 f Ty.half 0x1F0 true)
  | 0x140 =>
    let ii := f.ty.isInt && f.sty.isInt
    some { d := slV f.ty.regs, a := slVS f.sty.regs, mm := 0x7FF
           mok := f.tyIs (· != .q4) && f.styIs (· != .q4) && !(ii && f.m 4 2 != 0) && !(f.m 10 1 == 1 && !ii) }
  | 0x141 =>
    some { d := slV 1, a := slV (if f.sty == .f32 then 8 else 4), b := slVSI 1, mm := 0x3CF
           mok := f.tyIs (· == .q4) && f.styIs (fun t => t == .f32 || t == .bf16), rng := f.bRng 0 255 }
  | 0x142 =>
    some { d := slV (if f.ty == .f32 then 8 else 4), a := slVS 1, b := slVSI 1, mm := 0x3CF
           mok := f.tyIs (fun t => t == .f32 || t == .bf16) && f.styIs (· == .q4), rng := f.bRng 0 255 }
  | 0x180 => some { d := slW, a := slVS 2, b := slS 1, mm := 0x1F77 }
  | 0x181 => some { d := slW }
  | 0x182 => some { d := if f.m 0 1 = 1 then {} else slW, a := slS 1, mm := 0x1F01 }
  | 0x183 => some { d := slV (if f.m 0 1 = 1 then 2 else 1), a := slW, mm := 1 }
  | 0x184 => some (fWin f false true)
  | 0x185 => some (fWin f false false)
  | 0x186 => some (fWin f true false)
  | 0x187 => some (fWin f true false)
  | 0x188 | 0x189 => some (fPan f)
  | 0x18A =>
    some { d := slV f.ty.regs, a := slW, b := slSI 1, mm := 0xFF, mok := f.tyIs Ty.mem, rng := f.bRng 0 127 }
  | 0x200 =>
    let strict := f.m 3 1 == 1
    some { d := slS 1, a := if strict then slS 2 else { kinds := [.s], mult := 1, zero := true }, mm := 0xF
           mok := decide (1 ≤ f.m 0 3 ∧ f.m 0 3 ≤ 4) && !(strict && decide (3 ≤ f.m 0 3)) && (strict || f.a == 0) }
  | 0x201 => some { d := slS 1, mm := 7, mok := decide (f.m 0 3 ≤ 2) }
  | 0x202 => some { d := slS 1, mm := 7, mok := decide (1 ≤ f.m 0 3 ∧ f.m 0 3 ≤ 4) }
  | 0x203 => some (fAtom f false)
  | 0x204 => some (fAtom f true)
  | 0x206 => some { d := slS 2, a := slB, b := slSI 1, rng := (barRng f.a .a).orElse fun _ => f.bRng 1 36864 }
  | 0x207 => some { d := slS 1, a := slB, b := slSI 1, mm := 0x1F00, rng := barRng f.a .a }
  | 0x208 => some { d := slS 2, a := slB, b := slSI 1, mm := 0x1F00, rng := (barRng f.a .a).orElse fun _ => f.bRng 1 36864 }
  | 0x209 => some { d := slS 2, a := slB, mm := 3, rng := barRng f.a .a }
  | 0x20A => some { d := slS 1, a := slSI 1, mm := 0x1F03, rng := if kindOf f.a = .i ∧ f.a.getLsbD 9 then some .a else none }
  | 0x20B => some { d := slS 1, a := slK, mm := 0x1F00 }
  | 0x240 =>
    some { d := slS 1, a := slS 2, b := { kinds := [.b], zero := true }, mm := 0x1F03, mok := f.m 0 2 != 3
           rng := if f.b = 0 then none
                  else if f.b.extractLsb' 6 2 = 1 ∨ f.b.extractLsb' 6 2 = 2 then barRng f.b .b else some .b }
  | 0x241 =>
    some { d := slS 1, a := slV 4, b := slS 2, mm := 0x7F
           mok := f.tyIs Ty.wd && decide (f.m 4 3 ≤ 5) && opTy (AOp.ofCode (f.m 4 3)) f.ty }
  | 0x242 => some { d := slS 1, a := slS 2, b := slSI 1, mm := 1 }
  | 0x243 => some { d := slV 1, a := slV 1, b := slV 1, im := 0x7F }
  | 0x244 => some { d := slK, a := slV 4, mm := 0xCF, mok := decide (f.m 0 3 ≤ 4) }
  | 0x245 => some { d := slK, a := slVS 2, b := slS 1, mm := 0xCF, mok := f.tyIs mxTy }
  | 0x246 => some { d := slK, a := slVS 2, b := slS 1, mm := 0x1FF, mok := f.tyIs mxTy }
  | 0x247 => some { d := slK, mm := 0x1C3, mok := f.m 0 2 != 3 && !(f.m 8 1 == 1 && f.m 0 2 != 0) }
  | 0x248 =>
    let rec_ := f.m 0 1 == 1
    some { d := slS 1, a := slS 2, b := if rec_ then {} else slI, mm := 1, rng := if rec_ then none else f.dispRng }
  | 0x249 =>
    some { d := slS 1, a := slSI 1, mm := 0x1F00
           rng := if kindOf f.a = .i ∧ ¬((f.a.extractLsb' 0 10).toNat % 8 = 0 ∧ 8 ≤ (f.a.extractLsb' 0 10).toNat ∧
                      (f.a.extractLsb' 0 10).toNat ≤ 256) then some .a else none }
  | 0x280 | 0x281 | 0x282 | 0x283 | 0x284 => some (fScal f)
  | 0x285 =>
    some { d := slS f.ty.regs, a := slS f.ty.regs, b := slS f.ty.regs, c := some (slS f.ty.regs), im := 0x3FFFF, mm := 0xF
           mok := f.tyIs Ty.nwd }
  | 0x286 => some { fScal f with b := slSI 1, mok := f.tyIs Ty.nwd }
  | 0x287 => some { fScal f with b := slSI 1 }
  | 0x288 =>
    some { d := slS f.ty.regs, a := slS f.ty.regs, b := slS 1, mm := 0x3FF
           mok := f.tyIs Ty.nwd && !(f.m 4 1 == 1 && f.ty == .n32) }
  | 0x289 =>
    let imm := kindOf f.a == .i
    some { d := slS f.ty.regs, a := slSI f.ty.regs, b := if imm then slI else {}, mm := 0xF, mok := f.tyIs Ty.nwd
           res := if imm && f.a.extractLsb' 0 10 != 0 then some .a else none }
  | 0x28A =>
    let ii := f.ty.isInt && f.sty.isInt
    some { d := slS f.ty.regs, a := slS f.sty.regs, mm := 0x7FF
           mok := f.tyIs (· != .q4) && f.styIs (· != .q4) && f.m 4 2 == 0 && !(f.m 10 1 == 1 && !ii) }
  | 0x28B => some { d := slP, a := slS f.ty.regs, b := slSI f.ty.regs, mm := 0x7F, mok := condOk f }
  | 0x28C => some { fScal f with mm := 0xFF, mok := f.tyIs Ty.nwd }
  | 0x2C0 => some { im := 0xFFFFF }
  | 0x2C2 =>
    let n := f.im 0 8
    some { d := if n = 0 then slV 1 else if n = 0x11 || n = 0x12 then slS 2 else slVS (sregRegs n), im := 0xFF, rng := if sregListed n then none else some .none }
  | 0x2C3 =>
    let n := f.im 0 8
    some { a := slSI (sregRegs n), im := 0xFF, rng := if sregListed n then none else some .none }
  | 0x2C4 => some { d := slS 1, a := slS 4, mm := 3 }
  | 0x2C5 => some { d := slS 1, a := slS 16, b := slSI 1 }
  | 0x2C6 => some { d := slS 2, a := slS 16 }
  | _ => none

/-- Step 4 for one operand field: unused fields are 0x000, and the index bits that R76 names are zero. -/
def resBad (x : BitVec 12) (sl : Slot) : Bool :=
  if sl.kinds.isEmpty then x != 0 else !indexZeroOk x
/-- Step 5 for one operand field. -/
def kindBad (x : BitVec 12) (sl : Slot) : Bool :=
  !sl.kinds.isEmpty && !(sl.zero && x == 0) && !sl.kinds.contains (kindOf x)
/-- Step 7 for one operand field: a register index that is no multiple of the slot's (R76). -/
def pairBad (x : BitVec 12) (sl : Slot) : Bool :=
  match kindOf x with
  | .v => !alignedTo sl.mult (x.extractLsb' 0 8).toNat
  | .s => !alignedTo sl.mult (x.extractLsb' 0 7).toNat
  | _ => false
/-- R308: the third source as an operand field; kinds 10 and 11 keep their kind. -/
def Fields.cfield (f : Fields) : BitVec 12 := f.imm.extractLsb' 8 2 ++ 0#2 ++ f.imm.extractLsb' 0 8

/-- The first check of R90's steps 4 to 8 that a word fails, with its sub-code and operand field. -/
def checkWord (f : Fields) (m : Fmt) : Option DecodeErr :=
  let cr := m.c.any fun _ => f.imm.extractLsb' 8 2 == 1#2 && f.imm.getLsbD 7
  let ck := m.c.any fun sl => kindBad f.cfield sl
  let cp := m.c.any fun sl => pairBad f.cfield sl
  let bi := m.b.kinds.contains .i && kindOf f.b == .i
  let all := m.b.kinds.contains .i && (kindOf f.b == .i || m.b.kinds.length == 1)
  if resBad f.d m.d then some ⟨.reservedBit, .d⟩
  else if resBad f.a m.a || m.res == some .a then some ⟨.reservedBit, .a⟩
  else if resBad f.b m.b || cr then some ⟨.reservedBit, .b⟩
  else if f.mods &&& ~~~(BitVec.ofNat 14 m.mm) != 0 then some ⟨.reservedBit, .none⟩
  else if !all && f.imm &&& ~~~(BitVec.ofNat 20 m.im) != 0 then some ⟨.reservedBit, .none⟩
  else if f.hres != 0 then some ⟨.reservedBit, .none⟩
  else if kindBad f.d m.d then some ⟨.operandKind, .d⟩
  else if kindBad f.a m.a then some ⟨.operandKind, .a⟩
  else if kindBad f.b m.b || ck then some ⟨.operandKind, .b⟩
  else if !m.mok then some ⟨.modifier, .none⟩
  else if pairBad f.d m.d then some ⟨.pair, .d⟩
  else if pairBad f.a m.a then some ⟨.pair, .a⟩
  else if (!bi && pairBad f.b m.b) || cp then some ⟨.pair, .b⟩
  else m.rng.map fun fl => ⟨.operandRange, fl⟩

/-- The guard and hints of a word. -/
def Fields.hdr (f : Fields) : Hdr := { guard := { neg := f.gneg, p := f.gp }, st := f.st, y := f.y, ru := f.ru }
/-- A vector index. -/
def vr (x : BitVec 12) : BitVec 8 := x.extractLsb' 0 8
/-- A scalar index. -/
def sr (x : BitVec 12) : BitVec 7 := x.extractLsb' 0 7
/-- A predicate or token index. -/
def pr (x : BitVec 12) : BitVec 3 := x.extractLsb' 0 3
/-- A window index. -/
def wr (x : BitVec 12) : BitVec 4 := x.extractLsb' 0 4
/-- A barrier. -/
def br (x : BitVec 12) : Bar := ⟨x.extractLsb' 6 2, x.extractLsb' 0 6⟩
/-- Operand D or A as a term: an immediate is its 10 bits, sign-extended (R77). -/
def opA (x : BitVec 12) : Opnd :=
  match kindOf x with
  | .v => .v (vr x)
  | .s => .s (sr x)
  | .i => .i ((x.extractLsb' 0 10).signExtend 30)
  | _ => .p (pr x)
/-- Operand B as a term (R77). -/
def Fields.opB (f : Fields) : Opnd :=
  match kindOf f.b with
  | .v => .v (vr f.b)
  | .s => .s (sr f.b)
  | .i => .i f.bval
  | _ => .p (pr f.b)
/-- Operand C as a term (R308). -/
def Fields.opC (f : Fields) : Opnd := opA f.cfield
/-- One modifier bit. -/
def Fields.mb (f : Fields) (k : Nat) : Bool := f.mods.getLsbD k
/-- The rounding group. -/
def Fields.rnd (f : Fields) : Rnd := Rnd.ofCode (f.m 4 2)
/-- The timeout group. -/
def Fields.tmo (f : Fields) : BitVec 5 := f.mods.extractLsb' 8 5
/-- The offset of ATOM and RED (R292). -/
def Fields.aoff (f : Fields) : AtomOff :=
  if f.im 8 1 = 0 then .const (f.imm.extractLsb' 0 8) else .reg (f.imm.extractLsb' 0 8)
/-- The access group of a window access. -/
def Fields.acc (f : Fields) : Acc :=
  match f.m 7 2 with
  | 1 => .chk (f.mods.extractLsb' 9 3)
  | 2 => .sc (f.mods.extractLsb' 9 3)
  | _ => .nochk

/-- The instruction of a word that passes the checks. -/
def build (f : Fields) : Instr :=
  let h := f.hdr
  let d := vr f.d
  let sd := sr f.d
  let pd := pr f.d
  let a := opA f.a
  let b := f.opB
  let c := f.opC
  let t := f.ty
  let s3 := f.mods.extractLsb' 4 3
  match f.op.toNat with
  | 0x001 => .nop h
  | 0x002 =>
    match f.m 0 2 with
    | 1 => .braDual h f.bval (f.d.extractLsb' 0 10) (f.mods.extractLsb' 4 4)
    | 2 => .braSplit h f.bval (f.d.extractLsb' 0 10) (f.mods.extractLsb' 4 4)
    | _ => .bra h f.bval
  | 0x003 => .brx h (sr f.a)
  | 0x004 => .call h sd b
  | 0x005 => .ret h (sr f.a)
  | 0x006 => .join h
  | 0x007 => .exit h
  | 0x008 => .yield h
  | 0x009 => .sleep h b
  | 0x00A => .elect h pd (if f.mb 0 then some (sr f.a) else none)
  | 0x00B => .vote h (VoteMode.ofCode (f.m 0 2)) (opA f.d) (pr f.a)
  | 0x040 => .iadd h d a b t (f.mb 4)
  | 0x041 => .isub h d a b t (f.mb 4)
  | 0x042 => .imul h d a b t (f.mb 4)
  | 0x043 => .imulhi h d a b t
  | 0x044 => .imad h d a b c t (f.mb 4)
  | 0x045 => .imin h d a b t
  | 0x046 => .imax h d a b t
  | 0x047 => .iabs h d a t (f.mb 4)
  | 0x048 => .isad h d a b c t (f.mb 4)
  | 0x049 => .idot4 h d a b c t (f.mb 4) (f.mods.extractLsb' 6 2)
  | 0x04A => .lop3 h d a b c t (f.imm.extractLsb' 10 8)
  | 0x04B => .shl h d a b t
  | 0x04C => .shr h d a b t
  | 0x04D => .shra h d a b t
  | 0x04E => .rot h d a b t (f.mb 4)
  | 0x04F => .shf h d a b c (f.mb 4)
  | 0x050 => .bfe h d a b t
  | 0x051 => .bfi h d a b t
  | 0x052 => .popc h d a t
  | 0x053 => .clz h d a t
  | 0x054 => .brev h d a t
  | 0x055 => .prmt h d a b (f.imm.extractLsb' 0 16)
  | 0x056 => .lea h d a b t (f.mb 4) (f.mods.extractLsb' 5 5)
  | 0x057 => .mov h d a t
  | 0x058 => .movi h d (f.a.extractLsb' 0 2 ++ f.bval)
  | 0x059 => .shfl h d (vr f.a) b t (ShflMode.ofCode (f.m 6 2)) (f.mods.extractLsb' 8 3)
  | 0x05A => .readlane h sd (vr f.a) b t
  | 0x05B => .wred h (opA f.d) (vr f.a) t f.rnd (AOp.ofCode (f.m 6 3))
  | 0x05C => .wscan h d (vr f.a) t f.rnd (AOp.ofCode (f.m 6 3)) (f.mb 9)
  | 0x05D => .setp h pd a b t (Cond.ofCode (f.m 4 3))
  | 0x05E => .plop h pd (pr f.a) (pr f.b) (f.imm.extractLsb' 0 3) (f.imm.extractLsb' 12 8)
  | 0x05F => .sel h d a b t s3 (f.mb 7)
  | 0x0C0 => .fadd h d a b f.rnd (f.mb 6) (f.mb 7)
  | 0x0C1 => .fsub h d a b f.rnd (f.mb 6) (f.mb 7)
  | 0x0C2 => .fmul h d a b f.rnd (f.mb 6) (f.mb 7)
  | 0x0C3 => .ffma h d a b c f.rnd (f.mb 6) (f.mb 7) (f.mb 8)
  | 0x0C4 => .fmin h d a b
  | 0x0C5 => .fmax h d a b
  | 0x0C6 => .frcp h d a f.rnd
  | 0x0C7 => .frsq h d a
  | 0x0C8 => .fsqrt h d a f.rnd
  | 0x0C9 => .fexp2 h d a
  | 0x0CA => .flog2 h d a
  | 0x0CB => .fsin h d a
  | 0x0CC => .fcos h d a
  | 0x0CD => .fscale h d a b f.rnd
  | 0x0CE => .frnd h d a f.rnd
  | 0x0CF => .fclass h d a t
  | 0x0D0 => .fdot2 h d a b c t f.rnd (f.mb 6) (f.mb 7) (f.mb 8)
  | 0x0D1 => .dadd h d a b f.rnd (f.mb 6) (f.mb 7)
  | 0x0D2 => .dmul h d a b f.rnd (f.mb 6) (f.mb 7)
  | 0x0D3 => .dfma h d a b c f.rnd (f.mb 6) (f.mb 7) (f.mb 8)
  | 0x0D4 => .hadd2 h d a b t f.rnd (f.mb 6) (f.mb 7) (H2Op.ofCode (f.m 9 2))
  | 0x0D5 => .hmul2 h d a b t f.rnd (f.mb 6) (f.mb 7)
  | 0x0D6 => .hfma2 h d a b c t f.rnd (f.mb 6) (f.mb 7) (f.mb 8)
  | 0x140 => .cvt h d a t f.sty f.rnd (f.mb 10)
  | 0x141 => .qpack h d (vr f.a) b f.sty
  | 0x142 => .qunpack h d a b t
  | 0x180 => .open h (wr f.d) a (sr f.b) (f.mods.extractLsb' 0 2) (f.mb 2) s3 f.tmo
  | 0x181 => .close h (wr f.d)
  | 0x182 => if f.mb 0 then .reopenTrap h (sr f.a) f.tmo else .reopen h (wr f.d) (sr f.a) f.tmo
  | 0x183 => .wquery h d (wr f.a) (f.mb 0)
  | 0x184 => .ldw h d (wr f.a) b t s3 f.acc
  | 0x185 => .stw h d (wr f.a) b t s3 f.acc
  | 0x186 => .ldws h sd (wr f.a) b t s3 f.acc
  | 0x187 => .stws h sd (wr f.a) b t s3 f.acc
  | 0x188 => .ldl h d a f.imm t s3
  | 0x189 => .stl h d a f.imm t s3
  | 0x18A => .cstw h d (wr f.a) b t (f.mods.extractLsb' 4 4)
  | 0x200 => .commit h sd (f.mods.extractLsb' 0 3) (if f.mb 3 then some (sr f.a) else none)
  | 0x201 => .abort h sd (f.mods.extractLsb' 0 3)
  | 0x202 => .acquire h sd (f.mods.extractLsb' 0 3)
  | 0x203 => .atom h d (wr f.a) f.aoff (vr f.b) t (AOp.ofCode (f.m 4 4)) (f.mods.extractLsb' 8 3) (f.mods.extractLsb' 11 3)
  | 0x204 => .red h (wr f.a) f.aoff (vr f.b) t (AOp.ofCode (f.m 4 4)) (f.mods.extractLsb' 8 3)
  | 0x205 => .ifence h
  | 0x206 => .arrive h sd (br f.a) b
  | 0x207 => .waitb h sd (br f.a) b f.tmo
  | 0x208 => .barsync h sd (br f.a) b f.tmo
  | 0x209 => if f.m 0 2 = 3 then .barqReset h sd (br f.a) else .barq h sd (br f.a) (BarqForm.ofCode (f.m 0 2))
  | 0x20A => .waitn h sd a (CPath.ofCode (f.m 0 2)) f.tmo
  | 0x20B => .waitk h sd (pr f.a) f.tmo
  | 0x240 => .cpy h sd (sr f.a) (if f.b = 0 then none else some (br f.b)) (CpyDir.ofCode (f.m 0 2)) f.tmo
  | 0x241 => .bina h sd (vr f.a) (sr f.b) t (AOp.ofCode (f.m 4 3))
  | 0x242 => .binr h sd (sr f.a) b (f.mb 0)
  | 0x243 => .isect h d (vr f.a) (vr f.b) (f.imm.extractLsb' 0 7)
  | 0x244 => .mma h pd (vr f.a) (Semi.ofCode (f.m 0 3)) (f.mb 3) (f.mods.extractLsb' 6 2)
  | 0x245 => .mxld h pd a (sr f.b) t (f.mods.extractLsb' 6 2)
  | 0x246 => .mxst h pd a (sr f.b) t f.rnd (f.mods.extractLsb' 6 2) (f.mb 8)
  | 0x247 => .mxz h pd (Fill.ofCode (f.m 0 2)) (f.mods.extractLsb' 6 2) (f.mb 8)
  | 0x248 => .launch h sd (sr f.a) (if f.mb 0 then none else some f.bval)
  | 0x249 => .vregs h sd a f.tmo
  | 0x280 => .sadd h sd (sr f.a) b t
  | 0x281 => .ssub h sd (sr f.a) b t
  | 0x282 => .smul h sd (sr f.a) b t
  | 0x283 => .smin h sd (sr f.a) b t
  | 0x284 => .smax h sd (sr f.a) b t
  | 0x285 => .slop3 h sd (sr f.a) (sr f.b) (f.imm.extractLsb' 0 7) t (f.imm.extractLsb' 10 8)
  | 0x286 => .sshl h sd (sr f.a) b t
  | 0x287 => .sshr h sd (sr f.a) b t
  | 0x288 => .slea h sd (sr f.a) (sr f.b) t (f.mb 4) (f.mods.extractLsb' 5 5)
  | 0x289 => .smov h sd (if kindOf f.a = .i then .i f.bval else .s (sr f.a)) t
  | 0x28A => .scvt h sd (sr f.a) t f.sty (f.mb 10)
  | 0x28B => .ssetp h pd (sr f.a) b t (Cond.ofCode (f.m 4 3))
  | 0x28C => .ssel h sd (sr f.a) b t s3 (f.mb 7)
  | 0x2C0 => .trap h f.imm
  | 0x2C1 => .tret h
  | 0x2C2 => .mfs h (opA f.d) (f.imm.extractLsb' 0 8)
  | 0x2C3 =>
    match f.im 0 8 with
    | 0x11 => .mtsTrappc h a
    | 0x18 => .mtsExcctl h a
    | 0x19 => .mtsExccount h a
    | 0x1A => .mtsExcwin h a
    | 0x1B => .mtsFaultmask h a
    | _ => .mts h a (f.imm.extractLsb' 0 8)
  | 0x2C4 => .xcinv h sd (sr f.a) (f.mods.extractLsb' 0 2)
  | 0x2C5 => .msgs h sd (sr f.a) b
  | 0x2C6 => .msgr h sd (sr f.a)
  | 0x2C7 => .halt h
  | _ => .unassignedOpcode h f.op

/-- The decoder, total on any word: the instruction, or the first check of R90's steps 4 to 8 that fails. A word whose opcode
the map does not assign decodes to the table's own row for it (R92). -/
def decode (w : IWord) : Except DecodeErr Instr :=
  let f := Fields.ofWord w
  match fmt f with
  | none => .ok (.unassignedOpcode f.hdr f.op)
  | some m => match checkWord f m with
    | some e => .error e
    | none => .ok (build f)

/-- A 96-bit word from its twelve bytes, the least significant first (R71, R3). -/
def wordOfBytes (bs : List Byte) : IWord :=
  (List.range 12).foldr (fun k acc => (acc <<< 8) ||| (((bs.getD k 0).zeroExtend 96 : IWord))) 0

/-- The twelve bytes of a word, the least significant first (R71). -/
def bytesOfWord (w : IWord) : List Byte := (List.range 12).map fun k => w.extractLsb' (8 * k) 8

/-- The host's probe: the instruction whose bits are `w`, laid out as the hardware stores them. -/
def decodeTableWord (nbits w : Nat) : Option Instr :=
  let bs := bytesOfWord (BitVec.ofNat 96 (w % 2 ^ nbits))
  match decode (wordOfBytes bs) with
  | .ok i => some i
  | .error _ => none

/-! The encoder. -/

/-- R76: a vector field. -/
def eV (r : BitVec 8) : BitVec 12 := 0#4 ++ r
/-- R76: a scalar field. -/
def eS (r : BitVec 7) : BitVec 12 := 0b01000#5 ++ r
/-- R76: a window field. -/
def eW (n : BitVec 4) : BitVec 12 := 0x80#8 ++ n
/-- R76: a predicate field. -/
def eP (n : BitVec 3) : BitVec 12 := 0b100100000#9 ++ n
/-- R76: a token field. -/
def eK (n : BitVec 3) : BitVec 12 := 0b101000000#9 ++ n
/-- R41: a barrier field. -/
def eB (b : Bar) : BitVec 12 := 0xB#4 ++ b.level ++ b.num
/-- R77: an immediate field of ten bits. -/
def eI (x : BitVec 10) : BitVec 12 := 0b11#2 ++ x
/-- An operand in field D or A. -/
def eA : Opnd → BitVec 12
  | .v r => eV r | .s r => eS r | .p n => eP n | .i x => eI (x.truncate 10)
/-- An operand in field B: its field. -/
def eBf : Opnd → BitVec 12
  | .v r => eV r | .s r => eS r | .p n => eP n | .i x => eI (x.extractLsb' 20 10)
/-- An operand in field B: what it puts into the immediate field. -/
def eBi : Opnd → BitVec 20
  | .i x => x.truncate 20
  | _ => 0
/-- R308: a third source in the immediate field. -/
def eC : Opnd → BitVec 10
  | .v r => 0#2 ++ r | .s r => 0b010#3 ++ r | .p n => 0b1000000#7 ++ n | .i x => 0b11#2 ++ x.truncate 8
/-- A type in four bits. -/
def eTy (t : Ty) : BitVec 4 := BitVec.ofNat 4 t.code
/-- A rounding in two bits. -/
def eRnd (r : Rnd) : BitVec 2 := BitVec.ofNat 2 r.code
/-- One bit. -/
def e1 (x : Bool) : BitVec 1 := BitVec.ofBool x
/-- R292: an offset of ATOM or RED. -/
def eOff : AtomOff → BitVec 20
  | .const n => 0#12 ++ n | .reg r => 1#12 ++ r
/-- The access group and its scope or predicate, [43:39] (R330). -/
def eAcc : Acc → BitVec 5
  | .nochk => 0 | .chk p => p ++ 1#2 | .sc s => s ++ 2#2

/-- The fields of a word from its opcode, header, operand fields, modifiers and immediate. -/
def mkF (op : BitVec 10) (h : Hdr) (d a b : BitVec 12) (m : BitVec 14) (im : BitVec 20) : Fields :=
  { op := op, gneg := h.guard.neg, gp := h.guard.p, d := d, a := a, b := b, mods := m, imm := im, hres := 0, ru := h.ru
    y := h.y, st := h.st }
/-- Two-source vector instructions. -/
def mk2 (op : BitVec 10) (h : Hdr) (d : BitVec 8) (a b : Opnd) (m : BitVec 14) : Fields :=
  mkF op h (eV d) (eA a) (eBf b) m (eBi b)
/-- Three-source vector instructions. -/
def mk3 (op : BitVec 10) (h : Hdr) (d : BitVec 8) (a b c : Opnd) (m : BitVec 14) : Fields :=
  mkF op h (eV d) (eA a) (eBf b) m (0#10 ++ eC c)
/-- One-source vector instructions. -/
def mk1 (op : BitVec 10) (h : Hdr) (d : BitVec 8) (a : Opnd) (m : BitVec 14) : Fields := mkF op h (eV d) (eA a) 0 m 0
/-- Scalar instructions of two sources. -/
def mkS (op : BitVec 10) (h : Hdr) (d a : BitVec 7) (b : Opnd) (m : BitVec 14) : Fields :=
  mkF op h (eS d) (eS a) (eBf b) m (eBi b)
/-- Window accesses. -/
def mkW (op : BitVec 10) (h : Hdr) (d : BitVec 12) (w : BitVec 4) (off : Opnd) (ty : Ty) (size : BitVec 3) (acc : Acc) : Fields :=
  mkF op h d (eW w) (eBf off) (0#2 ++ eAcc acc ++ size ++ eTy ty) (eBi off)
/-- The float moulds' modifiers. -/
def mFlt (t : Ty) (r : Rnd) (na nb nc : Bool) : BitVec 14 := 0#5 ++ e1 nc ++ e1 nb ++ e1 na ++ eRnd r ++ eTy t

/-- The fields of an instruction; an event has none, and answers the fields of the word 0. -/
def Instr.fields : Instr → Fields
  | .nop h => mkF 0x001 h 0 0 0 0 0
  | .bra h t => mkF 0x002 h 0 0 (eI (t.extractLsb' 20 10)) 0 (t.truncate 20)
  | .braDual h t jl js => mkF 0x002 h (eI jl) 0 (eI (t.extractLsb' 20 10)) (0#6 ++ js ++ 1#4) (t.truncate 20)
  | .braSplit h t jl js => mkF 0x002 h (eI jl) 0 (eI (t.extractLsb' 20 10)) (0#6 ++ js ++ 2#4) (t.truncate 20)
  | .brx h a => mkF 0x003 h 0 (eS a) 0 0 0
  | .call h d t => mkF 0x004 h (eS d) 0 (eBf t) 0 (eBi t)
  | .ret h a => mkF 0x005 h 0 (eS a) 0 0 0
  | .join h => mkF 0x006 h 0 0 0 0 0
  | .exit h => mkF 0x007 h 0 0 0 0 0
  | .yield h => mkF 0x008 h 0 0 0 0 0
  | .sleep h n => mkF 0x009 h 0 0 (eBf n) 0 (eBi n)
  | .elect h d idx => mkF 0x00A h (eP d) (idx.elim 0 eS) 0 (if idx.isSome then 1 else 0) 0
  | .vote h m d a => mkF 0x00B h (eA d) (eP a) 0 (BitVec.ofNat 14 m.code) 0
  | .iadd h d a b t x => mk2 0x040 h d a b (0#9 ++ e1 x ++ eTy t)
  | .isub h d a b t x => mk2 0x041 h d a b (0#9 ++ e1 x ++ eTy t)
  | .imul h d a b t x => mk2 0x042 h d a b (0#9 ++ e1 x ++ eTy t)
  | .imulhi h d a b t => mk2 0x043 h d a b (0#10 ++ eTy t)
  | .imad h d a b c t x => mk3 0x044 h d a b c (0#9 ++ e1 x ++ eTy t)
  | .imin h d a b t => mk2 0x045 h d a b (0#10 ++ eTy t)
  | .imax h d a b t => mk2 0x046 h d a b (0#10 ++ eTy t)
  | .iabs h d a t x => mk1 0x047 h d a (0#9 ++ e1 x ++ eTy t)
  | .isad h d a b c t x => mk3 0x048 h d a b c (0#9 ++ e1 x ++ eTy t)
  | .idot4 h d a b c t x sg => mk3 0x049 h d a b c (0#6 ++ sg ++ 0#1 ++ e1 x ++ eTy t)
  | .lop3 h d a b c t tt => mkF 0x04A h (eV d) (eA a) (eBf b) (0#10 ++ eTy t) (0#2 ++ tt ++ eC c)
  | .shl h d a b t => mk2 0x04B h d a b (0#10 ++ eTy t)
  | .shr h d a b t => mk2 0x04C h d a b (0#10 ++ eTy t)
  | .shra h d a b t => mk2 0x04D h d a b (0#10 ++ eTy t)
  | .rot h d a b t r => mk2 0x04E h d a b (0#9 ++ e1 r ++ eTy t)
  | .shf h d a b c r => mk3 0x04F h d a b c (0#9 ++ e1 r ++ eTy .n32)
  | .bfe h d a b t => mk2 0x050 h d a b (0#10 ++ eTy t)
  | .bfi h d a b t => mk2 0x051 h d a b (0#10 ++ eTy t)
  | .popc h d a t => mk1 0x052 h d a (0#10 ++ eTy t)
  | .clz h d a t => mk1 0x053 h d a (0#10 ++ eTy t)
  | .brev h d a t => mk1 0x054 h d a (0#10 ++ eTy t)
  | .prmt h d a b n => mkF 0x055 h (eV d) (eA a) (eBf b) 0 (0#4 ++ n)
  | .lea h d a b t sx sh => mk2 0x056 h d a b (0#4 ++ sh ++ e1 sx ++ eTy t)
  | .mov h d a t => mk1 0x057 h d a (0#10 ++ eTy t)
  | .movi h d x => mkF 0x058 h (eV d) (eI (0#8 ++ x.extractLsb' 30 2)) (eI (x.extractLsb' 20 10)) 0 (x.truncate 20)
  | .shfl h d a b t m pd => mk2 0x059 h d (.v a) b (0#3 ++ pd ++ BitVec.ofNat 2 m.code ++ 0#2 ++ eTy t)
  | .readlane h d a b t => mkF 0x05A h (eS d) (eV a) (eBf b) (0#10 ++ eTy t) (eBi b)
  | .wred h d a t r op => mkF 0x05B h (eA d) (eV a) 0 (0#5 ++ BitVec.ofNat 3 op.code ++ eRnd r ++ eTy t) 0
  | .wscan h d a t r op x => mkF 0x05C h (eV d) (eV a) 0 (0#4 ++ e1 x ++ BitVec.ofNat 3 op.code ++ eRnd r ++ eTy t) 0
  | .setp h d a b t c => mkF 0x05D h (eP d) (eA a) (eBf b) (0#7 ++ BitVec.ofNat 3 c.code ++ eTy t) (eBi b)
  | .plop h d a b c t => mkF 0x05E h (eP d) (eP a) (eP b) 0 (t ++ 0#9 ++ c)
  | .sel h d a b t p n => mk2 0x05F h d a b (0#6 ++ e1 n ++ p ++ eTy t)
  | .fadd h d a b r na nb => mk2 0x0C0 h d a b (mFlt .f32 r na nb false)
  | .fsub h d a b r na nb => mk2 0x0C1 h d a b (mFlt .f32 r na nb false)
  | .fmul h d a b r na nb => mk2 0x0C2 h d a b (mFlt .f32 r na nb false)
  | .ffma h d a b c r na nb nc => mk3 0x0C3 h d a b c (mFlt .f32 r na nb nc)
  | .fmin h d a b => mk2 0x0C4 h d a b (0#10 ++ eTy .f32)
  | .fmax h d a b => mk2 0x0C5 h d a b (0#10 ++ eTy .f32)
  | .frcp h d a r => mk1 0x0C6 h d a (0#8 ++ eRnd r ++ eTy .f32)
  | .frsq h d a => mk1 0x0C7 h d a (0#10 ++ eTy .f32)
  | .fsqrt h d a r => mk1 0x0C8 h d a (0#8 ++ eRnd r ++ eTy .f32)
  | .fexp2 h d a => mk1 0x0C9 h d a (0#10 ++ eTy .f32)
  | .flog2 h d a => mk1 0x0CA h d a (0#10 ++ eTy .f32)
  | .fsin h d a => mk1 0x0CB h d a (0#10 ++ eTy .f32)
  | .fcos h d a => mk1 0x0CC h d a (0#10 ++ eTy .f32)
  | .fscale h d a b r => mk2 0x0CD h d a b (0#8 ++ eRnd r ++ eTy .f32)
  | .frnd h d a r => mk1 0x0CE h d a (0#8 ++ eRnd r ++ eTy .f32)
  | .fclass h d a t => mk1 0x0CF h d a (0#10 ++ eTy t)
  | .fdot2 h d a b c t r na nb nc => mk3 0x0D0 h d a b c (mFlt t r na nb nc)
  | .dadd h d a b r na nb => mk2 0x0D1 h d a b (mFlt .f64 r na nb false)
  | .dmul h d a b r na nb => mk2 0x0D2 h d a b (mFlt .f64 r na nb false)
  | .dfma h d a b c r na nb nc => mk3 0x0D3 h d a b c (mFlt .f64 r na nb nc)
  | .hadd2 h d a b t r na nb op => mk2 0x0D4 h d a b (0#3 ++ BitVec.ofNat 2 op.code ++ 0#1 ++ e1 nb ++ e1 na ++ eRnd r ++ eTy t)
  | .hmul2 h d a b t r na nb => mk2 0x0D5 h d a b (mFlt t r na nb false)
  | .hfma2 h d a b c t r na nb nc => mk3 0x0D6 h d a b c (mFlt t r na nb nc)
  | .cvt h d a dt st r x => mk1 0x140 h d a (0#3 ++ e1 x ++ eTy st ++ eRnd r ++ eTy dt)
  | .qpack h d a b st => mk2 0x141 h d (.v a) b (0#4 ++ eTy st ++ 0#2 ++ eTy .q4)
  | .qunpack h d a b dt => mk2 0x142 h d a b (0#4 ++ eTy .q4 ++ 0#2 ++ eTy dt)
  | .open h w a st rd ro pd to_ => mkF 0x180 h (eW w) (eA a) (eS st) (0#1 ++ to_ ++ 0#1 ++ pd ++ 0#1 ++ e1 ro ++ rd) 0
  | .close h w => mkF 0x181 h (eW w) 0 0 0 0
  | .reopen h w st to_ => mkF 0x182 h (eW w) (eS st) 0 (0#1 ++ to_ ++ 0#8) 0
  | .reopenTrap h st to_ => mkF 0x182 h 0 (eS st) 0 (0#1 ++ to_ ++ 1#8) 0
  | .wquery h d w x => mkF 0x183 h (eV d) (eW w) 0 (0#13 ++ e1 x) 0
  | .ldw h d w off t sz acc => mkW 0x184 h (eV d) w off t sz acc
  | .stw h d w off t sz acc => mkW 0x185 h (eV d) w off t sz acc
  | .ldws h d w off t sz acc => mkW 0x186 h (eS d) w off t sz acc
  | .stws h d w off t sz acc => mkW 0x187 h (eS d) w off t sz acc
  | .ldl h d a x t sz => mkF 0x188 h (eV d) (eA a) 0 (0#7 ++ sz ++ eTy t) x
  | .stl h d a x t sz => mkF 0x189 h (eV d) (eA a) 0 (0#7 ++ sz ++ eTy t) x
  | .cstw h d w off t cw => mkF 0x18A h (eV d) (eW w) (eBf off) (0#6 ++ cw ++ eTy t) (eBi off)
  | .commit h st l x => mkF 0x200 h (eS st) (x.elim 0 eS) 0 (0#10 ++ e1 x.isSome ++ l) 0
  | .abort h st l => mkF 0x201 h (eS st) 0 0 (0#11 ++ l) 0
  | .acquire h st l => mkF 0x202 h (eS st) 0 0 (0#11 ++ l) 0
  | .atom h d w off b t op sc pd =>
    mkF 0x203 h (eV d) (eW w) (eV b) (pd ++ sc ++ BitVec.ofNat 4 op.code ++ eTy t) (eOff off)
  | .red h w off b t op sc => mkF 0x204 h 0 (eW w) (eV b) (0#3 ++ sc ++ BitVec.ofNat 4 op.code ++ eTy t) (eOff off)
  | .ifence h => mkF 0x205 h 0 0 0 0 0
  | .arrive h d bar n => mkF 0x206 h (eS d) (eB bar) (eBf n) 0 (eBi n)
  | .waitb h d bar g to_ => mkF 0x207 h (eS d) (eB bar) (eBf g) (0#1 ++ to_ ++ 0#8) (eBi g)
  | .barsync h d bar n to_ => mkF 0x208 h (eS d) (eB bar) (eBf n) (0#1 ++ to_ ++ 0#8) (eBi n)
  | .barq h d bar fm => mkF 0x209 h (eS d) (eB bar) 0 (BitVec.ofNat 14 fm.code) 0
  | .barqReset h d bar => mkF 0x209 h (eS d) (eB bar) 0 3 0
  | .waitn h d n p to_ => mkF 0x20A h (eS d) (eA n) 0 (0#1 ++ to_ ++ 0#6 ++ BitVec.ofNat 2 p.code) 0
  | .waitk h d k to_ => mkF 0x20B h (eS d) (eK k) 0 (0#1 ++ to_ ++ 0#8) 0
  | .cpy h d x bar dir to_ => mkF 0x240 h (eS d) (eS x) (bar.elim 0 eB) (0#1 ++ to_ ++ 0#6 ++ BitVec.ofNat 2 dir.code) 0
  | .bina h d x q t op => mkF 0x241 h (eS d) (eV x) (eS q) (0#7 ++ BitVec.ofNat 3 op.code ++ eTy t) 0
  | .binr h d q g x => mkF 0x242 h (eS d) (eS q) (eBf g) (0#13 ++ e1 x) (eBi g)
  | .isect h d a b c => mkF 0x243 h (eV d) (eV a) (eV b) 0 (0#13 ++ c)
  | .mma h k x se i tl => mkF 0x244 h (eK k) (eV x) 0 (0#6 ++ tl ++ 0#2 ++ e1 i ++ BitVec.ofNat 3 se.code) 0
  | .mxld h k a st t tl => mkF 0x245 h (eK k) (eA a) (eS st) (0#6 ++ tl ++ 0#2 ++ eTy t) 0
  | .mxst h k a st t r tl rel => mkF 0x246 h (eK k) (eA a) (eS st) (0#5 ++ e1 rel ++ tl ++ eRnd r ++ eTy t) 0
  | .mxz h k fl tl rel => mkF 0x247 h (eK k) 0 0 (0#5 ++ e1 rel ++ tl ++ 0#4 ++ BitVec.ofNat 2 fl.code) 0
  | .launch h d a en =>
    match en with
    | none => mkF 0x248 h (eS d) (eS a) 0 1 0
    | some x => mkF 0x248 h (eS d) (eS a) (eI (x.extractLsb' 20 10)) 0 (x.truncate 20)
  | .vregs h d n to_ => mkF 0x249 h (eS d) (eA n) 0 (0#1 ++ to_ ++ 0#8) 0
  | .sadd h d a b t => mkS 0x280 h d a b (0#10 ++ eTy t)
  | .ssub h d a b t => mkS 0x281 h d a b (0#10 ++ eTy t)
  | .smul h d a b t => mkS 0x282 h d a b (0#10 ++ eTy t)
  | .smin h d a b t => mkS 0x283 h d a b (0#10 ++ eTy t)
  | .smax h d a b t => mkS 0x284 h d a b (0#10 ++ eTy t)
  | .slop3 h d a b c t tt => mkF 0x285 h (eS d) (eS a) (eS b) (0#10 ++ eTy t) (0#2 ++ tt ++ 0b010#3 ++ c)
  | .sshl h d a b t => mkS 0x286 h d a b (0#10 ++ eTy t)
  | .sshr h d a b t => mkS 0x287 h d a b (0#10 ++ eTy t)
  | .slea h d a b t sx sh => mkF 0x288 h (eS d) (eS a) (eS b) (0#4 ++ sh ++ e1 sx ++ eTy t) 0
  | .smov h d a t =>
    match a with
    | .i x => mkF 0x289 h (eS d) (eI 0) (eI (x.extractLsb' 20 10)) (0#10 ++ eTy t) (x.truncate 20)
    | _ => mkF 0x289 h (eS d) (eA a) 0 (0#10 ++ eTy t) 0
  | .scvt h d a dt st x => mkF 0x28A h (eS d) (eS a) 0 (0#3 ++ e1 x ++ eTy st ++ 0#2 ++ eTy dt) 0
  | .ssetp h d a b t c => mkF 0x28B h (eP d) (eS a) (eBf b) (0#7 ++ BitVec.ofNat 3 c.code ++ eTy t) (eBi b)
  | .ssel h d a b t p n => mkS 0x28C h d a b (0#6 ++ e1 n ++ p ++ eTy t)
  | .trap h c => mkF 0x2C0 h 0 0 0 0 c
  | .tret h => mkF 0x2C1 h 0 0 0 0 0
  | .mfs h d n => mkF 0x2C2 h (eA d) 0 0 0 (0#12 ++ n)
  | .mts h a n => mkF 0x2C3 h 0 (eA a) 0 0 (0#12 ++ n)
  | .mtsExcctl h a => mkF 0x2C3 h 0 (eA a) 0 0 0x18
  | .mtsExccount h a => mkF 0x2C3 h 0 (eA a) 0 0 0x19
  | .mtsExcwin h a => mkF 0x2C3 h 0 (eA a) 0 0 0x1A
  | .mtsFaultmask h a => mkF 0x2C3 h 0 (eA a) 0 0 0x1B
  | .mtsTrappc h a => mkF 0x2C3 h 0 (eA a) 0 0 0x11
  | .xcinv h d x p => mkF 0x2C4 h (eS d) (eS x) 0 (0#12 ++ p) 0
  | .msgs h d x b => mkF 0x2C5 h (eS d) (eS x) (eBf b) 0 (eBi b)
  | .msgr h d x => mkF 0x2C6 h (eS d) (eS x) 0 0 0
  | .halt h => mkF 0x2C7 h 0 0 0 0 0
  | _ => mkF 0 ⟨⟨false, 0⟩, 0, false, 0⟩ 0 0 0 0 0

/-- The word of a well-formed instruction. -/
def encode (i : Instr) : IWord := i.fields.toWord

end Sys2Proof
end

