-- ==== Sys2Proof/Machine/Num.lean ====
section
/-! DEFINITION. Number formats, rounding and special values (11 R185-R198): exact values as sign, magnitude and power of two, one
rounding for every format, and the special functions by enclosures that are narrowed until they round alike. -/

namespace Sys2Proof.Machine

/-- The event classes an operation meets, by index (R201): 0 invalid, 1 divide-by-zero, 2 overflow, 3 underflow, 4 narrow
saturation, 5 NaN produced. -/
abbrev Events := BitVec 6
/-- Invalid. -/
def evInvalid : Events := 1
/-- Divide-by-zero. -/
def evDivZero : Events := 2
/-- Overflow. -/
def evOverflow : Events := 4
/-- Underflow. -/
def evUnderflow : Events := 8
/-- Narrow saturation. -/
def evNarrow : Events := 16
/-- NaN produced. -/
def evNan : Events := 32

/-- An operand's value: a NaN with its sign and whether it signals, an infinity, or (-1)^neg × m × 2^e. -/
inductive FVal where
  | nan (neg sig : Bool)
  | inf (neg : Bool)
  | fin (neg : Bool) (m : Nat) (e : Int)
  deriving DecidableEq, Repr

/-- A binary float format: exponent bits, fraction bits, bias (R186). -/
structure FFmt where
  eb   : Nat
  fb   : Nat
  bias : Nat
  deriving DecidableEq, Repr

/-- FP64. -/
def fp64 : FFmt := ⟨11, 52, 1023⟩
/-- FP32. -/
def fp32 : FFmt := ⟨8, 23, 127⟩
/-- FP16. -/
def fp16 : FFmt := ⟨5, 10, 15⟩
/-- BF16. -/
def bf16 : FFmt := ⟨8, 7, 127⟩
/-- E4M3, which has no infinity (R187). -/
def fE4M3 : FFmt := ⟨4, 3, 7⟩
/-- E5M2. -/
def fE5M2 : FFmt := ⟨5, 2, 15⟩

/-- Whether a format is E4M3 (R187). -/
def FFmt.noInf (f : FFmt) : Bool := f.eb == 4
/-- Whether conversions to a format saturate: E4M3 and E5M2 (R196). -/
def FFmt.sat (f : FFmt) : Bool := f == fE4M3 || f == fE5M2
/-- The width of a format. -/
def FFmt.width (f : FFmt) : Nat := 1 + f.eb + f.fb
/-- The format of a float type. -/
def tyFmt : Ty → FFmt
  | .f64 => fp64 | .f16 => fp16 | .bf16 => bf16 | .e4m3 => fE4M3 | .e5m2 => fE5M2 | _ => fp32
/-- The sign bit of a value, placed. -/
def FFmt.signBit (f : FFmt) (neg : Bool) : Nat := if neg then 2 ^ (f.eb + f.fb) else 0
/-- The canonical NaN, with a sign (R188). -/
def FFmt.nanBits (f : FFmt) (neg : Bool) : Nat :=
  f.signBit neg + (if f.noInf then 0x7F else (2 ^ f.eb - 1) * 2 ^ f.fb + 2 ^ (f.fb - 1))
/-- The largest finite value's bits (R186, R187). -/
def FFmt.maxBits (f : FFmt) (neg : Bool) : Nat :=
  f.signBit neg + (if f.noInf then 0x7E else (2 ^ f.eb - 1) * 2 ^ f.fb - 1)
/-- An infinity's bits. -/
def FFmt.infBits (f : FFmt) (neg : Bool) : Nat := f.signBit neg + (2 ^ f.eb - 1) * 2 ^ f.fb

/-- The value of a bit pattern (R186, R187). -/
def FFmt.val (f : FFmt) (x : Nat) : FVal :=
  let neg := x / 2 ^ (f.eb + f.fb) % 2 == 1
  let ex := x / 2 ^ f.fb % 2 ^ f.eb
  let fr := x % 2 ^ f.fb
  if f.noInf then
    if ex = 15 ∧ fr = 7 then .nan neg false
    else if ex = 0 then .fin neg fr (1 - 7 - 3) else .fin neg (8 + fr) ((ex : Int) - 7 - 3)
  else if ex = 2 ^ f.eb - 1 then
    if fr = 0 then .inf neg else .nan neg (fr < 2 ^ (f.fb - 1))
  else if ex = 0 then .fin neg fr (1 - (f.bias : Int) - f.fb)
  else .fin neg (2 ^ f.fb + fr) ((ex : Int) - f.bias - f.fb)

/-- Whether a finite value is below the smallest normal of a format and not zero. -/
def FFmt.isSub (f : FFmt) (x : Nat) : Bool := x / 2 ^ f.fb % 2 ^ f.eb == 0 && x % 2 ^ f.fb != 0

/-- A magnitude with `k` low bits dropped in a mode: `sticky` tells of a part below them (R80). -/
def roundShift (rm : Rnd) (neg : Bool) (m k : Nat) (sticky : Bool) : Nat × Bool :=
  let q := m / 2 ^ k
  let r := m % 2 ^ k
  let inexact := r != 0 || sticky
  let up := match rm with
    | .rz => false
    | .ru => inexact && !neg
    | .rd => inexact && neg
    | .rn =>
      if k = 0 then false
      else if 2 ^ (k - 1) < r then true
      else if r = 2 ^ (k - 1) then sticky || q % 2 == 1
      else false
  (if up then q + 1 else q, inexact)

/-- R186, R195, R196, R201: an exact value (-1)^neg × m × 2^e, with `sticky` for a part below its last bit, rounded once to a
format in a mode: the bits, and overflow, narrow saturation and underflow. -/
def FFmt.round (f : FFmt) (rm : Rnd) (neg : Bool) (m : Nat) (e : Int) (sticky : Bool := false) : Nat × Events :=
  if m = 0 ∧ !sticky then (f.signBit neg, 0)
  else
    let emin : Int := 1 - f.bias
    let lg : Int := (Nat.log2 m : Int) + e
    let q : Int := max (emin - f.fb) (lg - f.fb)
    let (r, inexact) :=
      if e ≤ q then roundShift rm neg m (q - e).toNat sticky
      else roundShift rm neg (m * 2 ^ (e - q).toNat) 0 sticky
    let (r, q) := if r = 2 ^ (f.fb + 1) then (2 ^ f.fb, q + 1) else (r, q)
    let small := r < 2 ^ f.fb
    let ex : Int := if small then 0 else q + f.fb + f.bias
    let ovf := if f.noInf then decide (15 < ex ∨ (ex = 15 ∧ r = 15)) else decide ((2 ^ f.eb - 2 : Int) < ex)
    if ovf then
      if f.sat then (f.maxBits neg, evNarrow)
      else
        let toInf := match rm with | .rn => true | .rz => false | .ru => !neg | .rd => neg
        (if toInf then f.infBits neg else f.maxBits neg, evOverflow)
    else
      (f.signBit neg + (if small then r else ex.toNat * 2 ^ f.fb + (r - 2 ^ f.fb)),
       if small && inexact then evUnderflow else 0)

/-- R192: a subnormal operand read as zero of its sign, where the launch flushes the format. -/
def FFmt.flushIn (f : FFmt) (ftz : Bool) (x : Nat) : Nat := if ftz && f.isSub x then f.signBit (x / 2 ^ (f.eb + f.fb) % 2 == 1) else x
/-- R192: a result below the smallest normal written as zero of its sign, with one underflow event. -/
def FFmt.flushOut (f : FFmt) (ftz : Bool) (r : Nat × Events) : Nat × Events :=
  if ftz && f.isSub r.1 then (f.signBit (r.1 / 2 ^ (f.eb + f.fb) % 2 == 1), r.2 ||| evUnderflow) else r

/-- Whether an operand is a signalling NaN. -/
def FVal.sig : FVal → Bool
  | .nan _ s => s
  | _ => false
/-- Whether an operand is a NaN. -/
def FVal.isNan : FVal → Bool
  | .nan _ _ => true
  | _ => false
/-- The sign of an operand. -/
def FVal.neg : FVal → Bool
  | .nan n _ | .inf n | .fin n _ _ => n
/-- An operand with its sign bit inverted (R309). -/
def FVal.flip (b : Bool) : FVal → FVal
  | .nan n s => .nan (n != b) s
  | .inf n => .inf (n != b)
  | .fin n m e => .fin (n != b) m e

/-- The invalid event of a list of operands: any signalling NaN (R193). -/
def sigEv (l : List FVal) : Events := if l.any FVal.sig then evInvalid else 0

/-- An exact product; the flag tells of 0 × ∞ (R193). -/
def FVal.mul (a b : FVal) : FVal × Bool :=
  match a, b with
  | .nan n _, _ => (.nan n false, false)
  | _, .nan n _ => (.nan n false, false)
  | .inf n, .fin k m _ => if m = 0 then (.nan false false, true) else (.inf (n != k), false)
  | .fin k m _, .inf n => if m = 0 then (.nan false false, true) else (.inf (n != k), false)
  | .inf n, .inf k => (.inf (n != k), false)
  | .fin n m e, .fin k l g => (.fin (n != k) (m * l) (e + g), false)

/-- A signed magnitude. -/
def sgn (neg : Bool) (m : Nat) : Int := if neg then -(m : Int) else m

/-- An exact sum of two values; the flag tells of ∞ − ∞. A zero sum keeps the operands' sign when they agree, and is
+0 otherwise, −0 under .RD (R193). -/
def FVal.add (rm : Rnd) (a b : FVal) : FVal × Bool :=
  match a, b with
  | .nan n _, _ => (.nan n false, false)
  | _, .nan n _ => (.nan n false, false)
  | .inf n, .inf k => if n = k then (.inf n, false) else (.nan false false, true)
  | .inf n, _ => (.inf n, false)
  | _, .inf k => (.inf k, false)
  | .fin n m e, .fin k l g =>
    let c := min e g
    let s := sgn n (m * 2 ^ (e - c).toNat) + sgn k (l * 2 ^ (g - c).toNat)
    if s = 0 then (.fin (if n = k then n else rm == .rd) 0 c, false) else (.fin (s < 0) s.natAbs c, false)

/-- A value written in a format: a NaN is the canonical one and counts NaN produced (R188, R201). -/
def FVal.write (f : FFmt) (rm : Rnd) (ftz : Bool) : FVal → Nat × Events
  | .nan _ _ => (f.nanBits false, evNan)
  | .inf n => (f.infBits n, 0)
  | .fin n m e => f.flushOut ftz (f.round rm n m e)

/-- R310: a + b, rounded once. -/
def fAdd (f : FFmt) (rm : Rnd) (ftz : Bool) (a b : FVal) : Nat × Events :=
  let (t, bad) := a.add rm b
  let (r, ev) := t.write f rm ftz
  (r, ev ||| sigEv [a, b] ||| (if bad then evInvalid else 0))
/-- R310: a × b, rounded once. -/
def fMul (f : FFmt) (rm : Rnd) (ftz : Bool) (a b : FVal) : Nat × Events :=
  let (t, bad) := a.mul b
  let (r, ev) := t.write f rm ftz
  (r, ev ||| sigEv [a, b] ||| (if bad then evInvalid else 0))
/-- R310: a × b + c, rounded once. -/
def fFma (f : FFmt) (rm : Rnd) (ftz : Bool) (a b c : FVal) : Nat × Events :=
  let (p, bad) := a.mul b
  let (t, bad2) := p.add rm c
  let (r, ev) := t.write f rm ftz
  (r, ev ||| sigEv [a, b, c] ||| (if bad || bad2 then evInvalid else 0))
/-- R193: whether the terms of an exact sum hold ∞ and −∞, whatever else they hold. -/
def infClash (l : List FVal) : Bool := l.contains (.inf false) && l.contains (.inf true)
/-- R193, R314: a0 × b0 + a1 × b1 + c, exact, rounded once. -/
def fDot2 (f : FFmt) (rm : Rnd) (ftz : Bool) (a0 b0 a1 b1 c : FVal) : Nat × Events :=
  let (p, x1) := a0.mul b0
  let (q, x2) := a1.mul b1
  let (r, ev) := ((p.add rm q).1.add rm c).1.write f rm ftz
  (r, ev ||| sigEv [a0, b0, a1, b1, c] ||| (if x1 || x2 || infClash [p, q, c] then evInvalid else 0))

/-- The order of two values that are no NaN, with −0 equal to +0. -/
def FVal.cmp (a b : FVal) : Ordering :=
  let v : FVal → FVal → Ordering := fun a b =>
    match a, b with
    | .inf n, .inf k => if n = k then .eq else if n then .lt else .gt
    | .inf n, _ => if n then .lt else .gt
    | _, .inf k => if k then .gt else .lt
    | .fin n m e, .fin k l g =>
      let c := min e g
      compare (sgn n (m * 2 ^ (e - c).toNat)) (sgn k (l * 2 ^ (g - c).toNat))
    | _, _ => .eq
  v a b

/-- R194: the smaller (or larger) of two operands by their bits; `x` and `y` are the bits of `a` and `b`. -/
def fMinMax (f : FFmt) (wantMax : Bool) (x y : Nat) : Nat × Events :=
  let a := f.val x
  let b := f.val y
  let inv := sigEv [a, b]
  match a.isNan, b.isNan with
  | true, true => (f.nanBits false, inv ||| evNan)
  | true, false => (y, inv)
  | false, true => (x, inv)
  | false, false =>
    let o := a.cmp b
    let aLess := o == .lt || (o == .eq && a.neg && !b.neg)
    (if aLess != wantMax then x else y, inv)

/-! Square roots and quotients, by digit recurrences with a fixed number of steps. -/

/-- The integer square root, one bit for each step. -/
def isqrtGo : Nat → Nat → Nat → Nat
  | 0, _, r => r
  | k + 1, n, r => let t := r + 2 ^ k; isqrtGo k n (if t * t ≤ n then t else r)
/-- The integer square root. -/
def isqrt (n : Nat) : Nat := isqrtGo (Nat.log2 n / 2 + 1) n 0

/-- R316: 1/x. -/
def fRcp (f : FFmt) (rm : Rnd) (ftz : Bool) (a : FVal) : Nat × Events :=
  match a with
  | .nan _ s => (f.nanBits false, evNan ||| (if s then evInvalid else 0))
  | .inf n => (f.signBit n, 0)
  | .fin n m e =>
    if m = 0 then (f.infBits n, evDivZero)
    else
      let k := Nat.log2 m + 64
      f.flushOut ftz (f.round rm n (2 ^ k / m) (-(k : Int) - e) (2 ^ k % m != 0))
/-- R316: √x. -/
def fSqrt (f : FFmt) (rm : Rnd) (ftz : Bool) (a : FVal) : Nat × Events :=
  match a with
  | .nan _ s => (f.nanBits false, evNan ||| (if s then evInvalid else 0))
  | .inf n => if n then (f.nanBits false, evNan ||| evInvalid) else (f.infBits false, 0)
  | .fin n m e =>
    if m = 0 then (f.signBit n, 0)
    else if n then (f.nanBits false, evNan ||| evInvalid)
    else
      let (m, e) := if e % 2 = 0 then (m, e) else (2 * m, e - 1)
      let x := m * 2 ^ 128
      let r := isqrt x
      f.flushOut ftz (f.round rm false r (e / 2 - 64) (r * r != x))
/-- R316: 1/√x. -/
def fRsq (f : FFmt) (ftz : Bool) (a : FVal) : Nat × Events :=
  match a with
  | .nan _ s => (f.nanBits false, evNan ||| (if s then evInvalid else 0))
  | .inf n => if n then (f.nanBits false, evNan ||| evInvalid) else (f.signBit false, 0)
  | .fin n m e =>
    if m = 0 then (f.infBits n, evDivZero)
    else if n then (f.nanBits false, evNan ||| evInvalid)
    else
      let (m, e) := if e % 2 = 0 then (m, e) else (2 * m, e - 1)
      let k := Nat.log2 m + 64
      let r := isqrt (2 ^ (2 * k) / m)
      f.flushOut ftz (f.round .rn false r (-(k : Int) - e / 2) (r * r * m != 2 ^ (2 * k)))

/-! The special functions. Each enclosure is a pair of naturals scaled by 2^p with the value between them. -/

/-- A value between `lo` and `hi`, scaled by 2^p, rounded to nearest even where both ends round alike. -/
def roundBetween (f : FFmt) (neg : Bool) (lo hi : Nat) (p : Nat) : Option (Nat × Events) :=
  let a := f.round .rn neg lo (-(p : Int)) true
  let b := f.round .rn neg hi (-(p : Int)) true
  if a = b then some a else none

/-- An enclosure narrowed, by doubling its precision, until its ends round alike (log entry 15). -/
def ziv (f : FFmt) (neg : Bool) (enc : Nat → Nat × Nat) : Nat → Nat → Nat × Events
  | 0, p => f.round .rn neg (enc p).1 (-(p : Int)) true
  | k + 1, p =>
    let (lo, hi) := enc p
    match roundBetween f neg lo hi p with
    | some r => r
    | none => ziv f neg enc k (2 * p)

/-- A series: the sum of terms from a step function, `n` terms. -/
def series (step : Nat → Nat → Nat) : Nat → Nat → Nat → Nat → Nat
  | 0, _, _, acc => acc
  | n + 1, k, t, acc => series step n (k + 1) (step k t) (acc + t)
/-- An alternating series. -/
def altSeries (step : Nat → Nat → Nat) : Nat → Nat → Nat → Bool → Int → Int
  | 0, _, _, _, acc => acc
  | n + 1, k, t, neg, acc => altSeries step n (k + 1) (step k t) (!neg) (if neg then acc - t else acc + t)

/-- ln 2 scaled by 2^p, from below, with an error under p + 2. -/
def ln2At (p : Nat) : Nat := (List.range (p + 1)).foldl (fun acc k => acc + 2 ^ p / ((k + 1) * 2 ^ (k + 1))) 0
/-- arctan (1/q) scaled by 2^p. -/
def atanInv (q p : Nat) : Int :=
  (List.range (p / 2 + 1)).foldl
    (fun acc k => let t : Int := (2 ^ p / ((2 * k + 1) * q ^ (2 * k + 1)) : Nat); if k % 2 = 0 then acc + t else acc - t) 0
/-- π/2 scaled by 2^p, by Machin's formula, with an error under 16 p. -/
def halfPiAt (p : Nat) : Nat := ((16 * atanInv 5 p - 4 * atanInv 239 p) / 2).toNat

/-- The allowance for the errors of a series at precision p. -/
def slack (p : Nat) : Nat := 64 * p + 64

/-- 2^(n/2^p) for n below 2^p, scaled by 2^p. -/
def exp2Enc (n p : Nat) : Nat × Nat :=
  let y := n * ln2At p / 2 ^ p
  let v := series (fun k t => t * y / 2 ^ p / (k + 1)) p 0 (2 ^ p) 0
  (v - slack p, v + slack p)

/-- R316: 2^x. -/
def fExp2 (f : FFmt) (ftz : Bool) (a : FVal) : Nat × Events :=
  match a with
  | .nan _ s => (f.nanBits false, evNan ||| (if s then evInvalid else 0))
  | .inf n => if n then (f.signBit false, 0) else (f.infBits false, 0)
  | .fin n m e =>
    if m = 0 then f.round .rn false 1 0
    else if 0 ≤ e ∨ m % 2 ^ (-e).toNat = 0 then
      let k : Nat := if 0 ≤ e then m * 2 ^ (min e 40).toNat else m / 2 ^ (-e).toNat
      f.flushOut ftz (f.round .rn false 1 (sgn n (min k 100000)))
    else
      let d := (-e).toNat
      -- x = whole + frac / 2^d with frac in [0, 2^d)
      let whole : Int := if n then -((m / 2 ^ d : Nat) : Int) - 1 else (m / 2 ^ d : Nat)
      let frac : Nat := if n then 2 ^ d - m % 2 ^ d else m % 2 ^ d
      let w : Int := max (-100000) (min whole 100000)
      let g : FFmt := f
      let enc : Nat → Nat × Nat := fun p => exp2Enc (frac * 2 ^ p / 2 ^ d) p
      let rec_ : Nat → Nat → Nat × Events := fun _ p =>
        g.round .rn false (enc p).1 (w - p) true
      let try1 : Nat → Option (Nat × Events) := fun p =>
        let (lo, hi) := enc p
        let a := g.round .rn false lo (w - p) true
        let b := g.round .rn false hi (w - p) true
        if a = b then some a else none
      f.flushOut ftz (((try1 96).orElse fun _ => (try1 192).orElse fun _ => (try1 384).orElse fun _ => try1 768).getD (rec_ 0 768))

/-- ln ((m × 2^s) / 2^s) as 2 artanh, for m/2^b in [1, 2), scaled by 2^p. -/
def lnEnc (m b p : Nat) : Nat :=
  let z := (m - 2 ^ b) * 2 ^ p / (m + 2 ^ b)
  let z2 := z * z / 2 ^ p
  2 * ((List.range (p / 2 + 1)).foldl (fun (acc : Nat × Nat) k => (acc.1 + acc.2 / (2 * k + 1), acc.2 * z2 / 2 ^ p)) (0, z)).1

/-- R316: log2 x. -/
def fLog2 (f : FFmt) (ftz : Bool) (a : FVal) : Nat × Events :=
  match a with
  | .nan _ s => (f.nanBits false, evNan ||| (if s then evInvalid else 0))
  | .inf n => if n then (f.nanBits false, evNan ||| evInvalid) else (f.infBits false, 0)
  | .fin n m e =>
    if m = 0 then (f.infBits true, evDivZero)
    else if n then (f.nanBits false, evNan ||| evInvalid)
    else
      let b := Nat.log2 m
      let k : Int := e + b
      if m = 2 ^ b then f.flushOut ftz (f.round .rn (k < 0) k.natAbs 0)
      else
        let at_ : Nat → Int × Int := fun p =>
          let l := lnEnc m b p
          let c := ln2At p
          -- log2 of the fraction lies between these
          let lo := (l - slack p) * 2 ^ p / (c + slack p)
          let hi := (l + slack p) * 2 ^ p / (c - slack p) + 1
          (k * 2 ^ p + lo, k * 2 ^ p + hi)
        let neg := decide (k < 0)
        let try1 : Nat → Option (Nat × Events) := fun p =>
          let (lo, hi) := at_ p
          if decide (lo < 0) = decide (hi < 0) then
            let x := f.round .rn neg lo.natAbs (-(p : Int)) true
            let y := f.round .rn neg hi.natAbs (-(p : Int)) true
            if x = y then some x else none
          else none
        f.flushOut ftz (((try1 96).orElse fun _ => (try1 192).orElse fun _ => (try1 384).orElse fun _ => try1 768).getD
          (f.round .rn neg (at_ 768).1.natAbs (-768) true))

/-- R316: sin x, or cos x, in radians. -/
def fSinCos (f : FFmt) (cosine : Bool) (ftz : Bool) (a : FVal) : Nat × Events :=
  match a with
  | .nan _ s => (f.nanBits false, evNan ||| (if s then evInvalid else 0))
  | .inf _ => (f.nanBits false, evNan ||| evInvalid)
  | .fin n m e =>
    if m = 0 then (if cosine then f.round .rn false 1 0 else (f.signBit n, 0))
    else
      let at_ : Nat → Bool × Nat × Nat × Nat := fun p0 =>
        let p := p0 + 160
        let x : Nat := if 0 ≤ (e + p) then m * 2 ^ (e + p).toNat else m / 2 ^ (-(e + p)).toNat
        let hp := halfPiAt (p + 160)
        let q := x * 2 ^ 160 / hp
        let r := (x * 2 ^ 160 - q * hp) / 2 ^ 160
        let quad := (q + if cosine then 1 else 0) % 4
        let useCos := quad % 2 == 1
        let r2 := r * r / 2 ^ p
        let v : Int :=
          if useCos then altSeries (fun k t => t * r2 / 2 ^ p / ((2 * k + 1) * (2 * k + 2))) (p / 2) 0 (2 ^ p) false 0
          else altSeries (fun k t => t * r2 / 2 ^ p / ((2 * k + 2) * (2 * k + 3))) (p / 2) 0 r false 0
        let v := v.toNat
        (decide (2 ≤ quad), v - slack p, v + slack p, p)
      let try1 : Nat → Option (Nat × Events) := fun p0 =>
        let (flip, lo, hi, p) := at_ p0
        roundBetween f (flip != (n && !cosine)) lo hi p
      let last : Nat × Events :=
        let (flip, lo, _, p) := at_ 512
        f.round .rn (flip != (n && !cosine)) lo (-(p : Int)) true
      f.flushOut ftz (((try1 64).orElse fun _ => (try1 128).orElse fun _ => (try1 256).orElse fun _ => try1 512).getD last)

/-- R318: a × 2^n. -/
def fScale (f : FFmt) (rm : Rnd) (ftz : Bool) (a : FVal) (n : Int) : Nat × Events :=
  match a with
  | .nan _ s => (f.nanBits false, evNan ||| (if s then evInvalid else 0))
  | .inf k => (f.infBits k, 0)
  | .fin k m e => f.flushOut ftz (f.round rm k m (e + max (-100000) (min n 100000)))

/-- A finite value rounded to an integer in a mode: its magnitude. -/
def intRound (rm : Rnd) (neg : Bool) (m : Nat) (e : Int) : Nat :=
  if 0 ≤ e then m * 2 ^ e.toNat else (roundShift rm neg m (-e).toNat false).1

/-- R317: the integral value next to the operand. -/
def fRnd (f : FFmt) (rm : Rnd) (a : FVal) : Nat × Events :=
  match a with
  | .nan _ s => (f.nanBits false, evNan ||| (if s then evInvalid else 0))
  | .inf k => (f.infBits k, 0)
  | .fin k m e => if 0 ≤ e then f.round rm k m e else ((f.round rm k (intRound rm k m e) 0).1, 0)

/-- R313: the class bit of an operand. -/
def fClass (f : FFmt) (x : Nat) : Nat :=
  match f.val x with
  | .nan _ s => if s then 1 else 2
  | .inf n => if n then 4 else 512
  | .fin n m _ =>
    if m = 0 then (if n then 32 else 64)
    else if f.isSub x then (if n then 16 else 128) else (if n then 8 else 256)

/-! Integers (R185). -/

/-- The least value of an integer type. -/
def minInt (t : Ty) : Int := if t.signed then -(2 ^ (t.bits - 1) : Nat) else 0
/-- The greatest value of an integer type. -/
def maxInt (t : Ty) : Int := if t.signed then (2 ^ (t.bits - 1) - 1 : Nat) else (2 ^ t.bits - 1 : Nat)
/-- The value of an integer type in the low bits of a register value (R185). -/
def readInt (t : Ty) (x : Nat) : Int :=
  let y := x % 2 ^ t.bits
  if t.signed && decide (2 ^ (t.bits - 1) ≤ y) then (y : Int) - (2 ^ t.bits : Nat) else y
/-- A value clamped to an integer type. -/
def clampInt (t : Ty) (x : Int) : Int := max (minInt t) (min (maxInt t) x)
/-- An integer result as a register value of 64 bits: wrapped to the type, then sign- or zero-extended to 32 bits for narrow
types (R185). -/
def writeInt (t : Ty) (x : Int) : Nat :=
  let y := (x % (2 ^ t.bits : Nat)).toNat
  if t.bits = 64 then y
  else if t.signed && decide (2 ^ (t.bits - 1) ≤ y) then 2 ^ 32 - 2 ^ t.bits + y else y

/-! Conversions (R195-R198, R307). -/

/-- R307: one element converted; `ftzS` and `ftzD` tell whether the source and destination formats are flushed (R192). -/
def cvtElem (dt st : Ty) (rm : Rnd) (sat ftzS ftzD : Bool) (x : Nat) : Nat × Events :=
  if st.isInt then
    let v := readInt st x
    if dt.isInt then (writeInt dt (if sat then clampInt dt v else v), 0)
    else (tyFmt dt).flushOut ftzD ((tyFmt dt).round rm (v < 0) v.natAbs 0)
  else
    let fs := tyFmt st
    let x := x % 2 ^ fs.width
    let a := fs.val (fs.flushIn ftzS x)
    if dt.isInt then
      match a with
      | .nan _ _ => (0, evInvalid)
      | .inf n => (writeInt dt (if n then (minInt dt) else (maxInt dt)), evInvalid)
      | .fin n m e =>
        let v := sgn n (intRound rm n m (min e 2000))
        if clampInt dt v = v then (writeInt dt v, 0) else (writeInt dt (clampInt dt v), evInvalid)
    else
      let fd := tyFmt dt
      match a with
      | .nan n s => (fd.nanBits n, evNan ||| (if s then evInvalid else 0))
      | .inf n => if fd.noInf then (fd.maxBits n, evNarrow) else (fd.infBits n, 0)
      | .fin n m e => if st = dt then (fs.flushIn ftzS x, 0) else fd.flushOut ftzD (fd.round rm n m e)

/-! 4-bit codes (R189, R190, R197). -/

/-- R190: the value of a code under a type, as sign, magnitude and power of two. -/
def q4Val (ty code : Nat) : Bool × Nat × Int :=
  match ty with
  | 0 => if code < 8 then (false, code, 0) else (true, 16 - code, 0)
  | 1 =>
    let ex := code / 2 % 4
    let fr := code % 2
    (8 ≤ code, if ex = 0 then fr else 2 + fr, if ex = 0 then -1 else (ex : Int) - 2)
  | 2 => if code = 8 then (false, 0, 0) else (false, 1, if code < 8 then code else (code : Int) - 16)
  | _ => if code < 8 then (false, code, 0) else (12 ≤ code, 1, 3 + (code % 4 : Nat))
/-- R189: the value of a code under a scale byte. -/
def q4Elem (scale code : Nat) : FVal :=
  let (n, m, e) := q4Val (scale / 64) code
  .fin n m (e + (scale % 64 : Nat) - 32)

/-- The distance of two exact values scaled to a common power of two, and their magnitudes. -/
def q4Dist (n : Bool) (m : Nat) (e : Int) (k : Bool) (l : Nat) (g : Int) : Nat :=
  let c := min e g
  let c := min c (-16)
  (sgn n (m * 2 ^ (e - c).toNat) - sgn k (l * 2 ^ (g - c).toNat)).natAbs * 2 ^ (c + 4096).toNat

/-- R196, R197: a source converted to the code of a scale byte's type. -/
def q4Pack (scale : Nat) (a : FVal) : Nat × Events :=
  let ty := scale / 64
  let zero := if ty = 2 then 8 else 0
  match a with
  | .nan _ _ => (zero, evInvalid)
  | .inf n => (match ty with | 0 => if n then 8 else 7 | 1 => if n then 15 else 7 | 2 => if n then 8 else 7 | _ => if n then 15 else 11, evNarrow)
  | .fin n m e0 =>
    if m = 0 then (zero, 0)
    else
      let e := e0 - (scale % 64 : Nat) + 32
      if ty = 2 ∧ n then (zero, evNarrow)
      else
        let best := (List.range 16).foldl (fun (acc : Option (Nat × Nat)) code =>
          if ty = 1 ∧ code = 8 then acc
          else
            let (k, l, g) := q4Val ty code
            let d := q4Dist n m e k l g
            match acc with
            | none => some (code, d)
            | some (c0, d0) =>
              let (_, l0, g0) := q4Val ty c0
              let mag := l * 2 ^ (g + 16).toNat
              let mag0 := l0 * 2 ^ (g0 + 16).toNat
              if d < d0 ∨ (d = d0 ∧ mag < mag0) then some (code, d) else acc) none
        let code := (best.map Prod.fst).getD zero
        -- the value rounded as if the range were unbounded above exceeds the limit (R196)
        let lim : Nat × Int := match ty with | 0 => if n then (17, -1) else (15, -1) | 1 => (7, 0) | 2 => (3, 6) | _ => (3, 5)
        let c := min e lim.2
        let mv := m * 2 ^ (e - c).toNat
        let lv := lim.1 * 2 ^ (lim.2 - c).toNat
        -- at the limit's midpoint a tie goes to the smaller magnitude
        let ovf := decide (lv < mv)
        let under := ty = 2 ∧ m * 2 ^ (e - min e (-8)).toNat ≤ 2 ^ ((-8 : Int) - min e (-8)).toNat
        (code, (if ovf then evNarrow else 0) ||| (if under then evUnderflow else 0))

end Sys2Proof.Machine
end

