-- ==== Sys2Proof/Config.lean ====
section
/-! DEFINITION. What an implementation fixes and the values the spec leaves open. An `opaque` constant has no value that a
proof can see. -/

namespace Sys2Proof.Config

/-- R86: whether a read of a fixed-latency result that has not landed gives the register's earlier value, by the draw
counter, the register and the lane. Free: log entry 2. -/
opaque staleRead : Nat → Nat → Nat → Bool

/-- A byte that the spec leaves unspecified (R8), by the draw counter and an index. Free: log entry 2. -/
opaque freeByte : Nat → Nat → BitVec 8

/-- A word that the spec leaves unspecified (R8), by the draw counter and an index. Free: log entry 2. -/
opaque freeWord : Nat → Nat → BitVec 32

/-- R334: cores' clocks are not synchronised with one another; the offset of a core's %clock, by die and core.
Free: log entry 11. -/
opaque clockSkew : Nat → Nat → BitVec 64

/-- R284, R285: the SM3 digest of bytes. The spec names the function and does not define it: log entry 8. -/
opaque sm3 : List (BitVec 8) → BitVec 256

/-- R285: the package's SM2 signature of a digest. Its key never leaves the device: log entry 8. -/
opaque sm2Sign : BitVec 256 → BitVec 512

/-- R284: whether the SM2 signature of an image checks against the key whose hash is fused in the die: log entry 8. -/
opaque sm2Verify : Nat → List (BitVec 8) → Bool

/-- R284: the version that a firmware image states, whether it asks for the minimum to rise, and to what. The layout of an
image is not in the spec: log entry 8. -/
opaque imageVersion : List (BitVec 8) → BitVec 16
/-- R284: the minimum version that a signed image asks for, if it does: log entry 8. -/
opaque imageMinimum : List (BitVec 8) → Option (BitVec 16)

/-- R285: the digest of the boot ROM: log entry 8. -/
opaque bootRomDigest : BitVec 256
/-- R284, R285: the digest of the image a die runs after power-on: log entry 8. -/
opaque firstImageDigest : Nat → BitVec 256
/-- R284, R285: the fused minimum version of a die at power-on: log entry 8. -/
opaque firstMinimum : Nat → BitVec 16

/-- R285: the packing of online dies, retired cores and spare cores in a report: log entry 8. -/
opaque reportBitmap : List Bool → List (List Nat) → List Nat → BitVec 64

/-- R285: the identity public key and the certificate chain, as bytes: log entry 8. -/
opaque identityBytes : List (BitVec 8)

end Sys2Proof.Config
end

