-- ==== Sys2Proof/Machine/State.lean ====
section
/-! DEFINITION. Everything the spec gives the machine, as plain data, and the machine right after reset. A `Sparse` map lists no
key whose value is the one an unlisted key reads as. -/

namespace Sys2Proof.Machine

/-- Why a step stops. -/
inductive Fault where
  /-- Raised by the meaning of an instruction when `State.cur` names no path that could issue. A step never does this: it sets
  `cur` to the candidate it issues. Safe: no claim about a run rests on it. -/
  | noPath
  deriving DecidableEq, Repr

/-- Why an instruction has no meaning. -/
inductive Refusal where
  /-- Raised by no meaning: it marks an arm of `exec` whose instruction has none yet. Safe. -/
  | notModelled (mnemonic : String)
  deriving DecidableEq, Repr

/-- Bytes at offsets or addresses. -/
abbrev Cells := List (Nat × Byte)

/-- The trap causes of R255. -/
inductive Cause where
  | illegal | priv | misalign | windowClosed | windowRecalled | xlate | dataError | stallCheck | barrier | excThreshold
  | soft | debug | matrix | cstwPartial | stack | double
  deriving DecidableEq, Repr

/-- The code of a cause (R255). -/
def Cause.code : Cause → Nat
  | .illegal => 1 | .priv => 2 | .misalign => 3 | .windowClosed => 4 | .windowRecalled => 5 | .xlate => 6 | .dataError => 7
  | .stallCheck => 8 | .barrier => 9 | .excThreshold => 10 | .soft => 11 | .debug => 12 | .matrix => 13 | .cstwPartial => 14
  | .stack => 15 | .double => 16

/-- A fault record of 64 bytes, by its fields (R265, R266). -/
structure FaultRecord where
  type   : Nat := 0
  sub    : Nat := 0
  status : Nat := 0
  field  : Fld := .none
  retired   : Bool := false
  imprecise : Bool := false
  handler   : Bool := false
  die    : Nat := 0
  core   : Nat := 0
  slot   : Nat := 0
  split  : Nat := 0
  grid   : Nat := 0
  block  : Nat := 0
  wave   : Nat := 0
  hearth : Nat := 0
  tile   : Nat := 0
  mxop   : Nat := 0
  row    : Nat := 0
  col    : Nat := 0
  pc     : DWord := 0
  mask   : Lanes := 0
  addr   : DWord := 0
  detail : BitVec 128 := 0
  deriving DecidableEq, Repr

/-- A trap that is due or pending: the record it will write, the cause, and the path and PC it interrupts. -/
structure Trap where
  cause  : Cause
  record : FaultRecord
  trappc : DWord
  split  : Nat
  second : Bool
  /-- Whether the path and PC are those of the split whose issue is next when the trap is taken (R204, R228). -/
  atNext : Bool := false
  /-- The window that the faulting access names (R140). -/
  win    : Option Nat := none
  deriving DecidableEq, Repr

/-- What a path waits on; deadlines are clocks of the die of the wave's core (R22, R48, R51). -/
inductive Wait where
  | barrier (bar : Bar) (gen : Word) (dst : BitVec 7) (pair : Bool) (deadline : Nat)
  | token (k : BitVec 3) (dst : BitVec 7) (deadline : Nat)
  | counter (path : CPath) (n : Nat) (dst : BitVec 7) (deadline : Nat)
  | sleep (clocks : Nat)
  | op (id : Nat)
  | growth (n : Nat) (dst : BitVec 7) (deadline : Nat)
  | regLine (line : Nat)
  | openFault (mask : Lanes) (addr : DWord)
  deriving DecidableEq, Repr

/-- One path of a split: PC and lanes (R29), the clock from which it may issue (R81), the clock its yield counts from (R82),
what it waits on, and whether it has stopped at the dual JOIN (R30). -/
structure Path where
  pc      : PC := 0
  mask    : Lanes := 0
  readyAt : Nat := 0
  yieldAt : Option Nat := none
  wait    : Option Wait := none
  atJoin  : Bool := false
  deriving DecidableEq, Repr

/-- The kind of a stack entry (R29). -/
inductive StackKind where
  | pending | reconverge
  deriving DecidableEq, Repr

/-- An entry of a reconvergence stack (R29). `wait` is the wait of a parked path that a divergence of its partner pushed here
(R32): it ends in the stack as it would have ended in the path. `readyAt` and `yieldAt` are that path's spacing and yield (R81, R82). -/
structure StackEntry where
  kind   : StackKind
  pc     : PC
  mask   : Lanes
  joinPc : PC
  wait   : Option Wait := none
  readyAt : Nat := 0
  yieldAt : Option Nat := none
  deriving DecidableEq, Repr

/-- The states of a split (R29). PARKED_WAIT is RUNNING with every live path waiting: `Split.parkedWait`. -/
inductive SplitSt where
  | free | running | parkedJoin | faulted | handler
  deriving DecidableEq, Repr

/-- A split entry (R29). -/
structure Split where
  st       : SplitSt := .free
  p1       : Path := {}
  parent   : Option Nat := none
  p2       : Option Path := none
  dualJoin : PC := 0
  stack    : List StackEntry := []
  /-- The failing address of a FAULTED split (R123). -/
  faultAddr : DWord := 0
  deriving DecidableEq, Repr

/-- A join entry (R29); `used` is false for a FREE entry. -/
structure JoinEntry where
  used     : Bool := false
  joinPc   : PC := 0
  expected : Lanes := 0
  arrived  : Lanes := 0
  outer    : Option Nat := none
  deriving DecidableEq, Repr

/-- The states of a binding (R117). `pending` is the model's own: BOUND before a pre-emption, and at the resume not yet reopened for want of
the host's translation (R141, R146); its wave issues nothing meanwhile. -/
inductive BindSt where
  | unbound | bound | recalled | pending
  deriving DecidableEq, Repr

/-- A binding of one lane's window (R117); `line` is the physical line number, meaningful when BOUND. -/
structure Binding where
  st    : BindSt := .unbound
  addr  : DWord := 0
  line  : Nat := 0
  write : Bool := false
  rd    : BitVec 2 := 0
  deriving DecidableEq, Repr

/-- The states of a token slot (R209). -/
inductive TokSt where
  | empty | pending | done | faulted | suspended
  deriving DecidableEq, Repr

/-- A token slot (R209). -/
structure Token where
  st     : TokSt := .empty
  status : Word := 0
  deriving DecidableEq, Repr

/-- A barrier instance (R42). `lanes` are the arrived lanes of a wave barrier, `who` the arrived waves of the others. `marks` tell, for R218,
how many STLs the arrivals of each generation followed: generation, block, wave and count. -/
structure Barrier where
  gen     : Word := 0
  arrived : Nat := 0
  lanes   : Lanes := 0
  who     : List (Nat × Nat) := []
  pend    : Nat := 0
  faulted : Bool := false
  lastF   : Option Word := none
  marks   : List (Word × Nat × Nat × Nat) := []
  deriving DecidableEq, Repr

/-- One byte that a delta holds: its value, the child that wrote it last and that move's count (R156). -/
structure DByte where
  val   : Byte
  child : Nat := 0
  count : Nat := 0
  deriving DecidableEq, Repr

/-- A delta of a store buffer (R152): its address space, virtual and physical line numbers, whether it is marked for
retranslation (R149) or found uncorrectable (R271), and its bytes by offset. -/
structure Delta where
  space  : Nat
  va     : Nat
  pa     : Nat
  marked : Bool := false
  bad    : Bool := false
  bytes  : List (Nat × DByte)
  deriving DecidableEq, Repr

/-- R163: bytes that an access or a reduction record is to take out of its wave's store buffer, each as its line and its offset there: by
virtual line for deltas that are marked, and by physical line for the others. -/
structure Watch where
  vas : List (Nat × Nat) := []
  pas : List (Nat × Nat) := []
  deriving DecidableEq, Repr

/-- A reduction record (R160, R351); `place` is the slot, and the place in it, of a wave that has ended. -/
structure RedRec where
  wave   : Nat
  place  : Option (Nat × Nat) := none
  space  : Nat
  va     : Nat
  pa     : Nat
  off    : Nat
  op     : AOp
  ty     : Ty
  scope  : Nat
  value  : DWord
  marked : Bool := false
  /-- R271: found uncorrectable. -/
  bad    : Bool := false
  /-- R163: its bytes that its wave has not stored to since it was made. -/
  own    : Watch := {}
  /-- R146, R149: whether the host has refused its page under PRI while a COMMIT waited for it. -/
  denied : Bool := false
  deriving DecidableEq, Repr

/-- A register of a wave: vector, scalar or predicate. -/
inductive RReg where
  | v (r : Nat)
  | s (r : Nat)
  | p (r : Nat)
  deriving DecidableEq, Repr

/-- A fixed-latency result that has not landed (R84): its register, the lanes and values written, when it lands, and who
produced it. A predicate's value is 0 or 1. -/
structure FixedWrite where
  reg    : RReg
  vals   : List (Nat × Word)
  due    : Nat
  pc     : PC
  split  : Nat
  second : Bool
  hand   : Bool
  /-- R32, R88: where its path has been pushed by a divergence of its partner: the place of its entry in the stack, from the bottom. -/
  place  : Option Nat := none
  deriving DecidableEq, Repr

/-- The handler of a wave (R256, R257): the trapped split and path, the split's earlier state, the handler's predicates and its
path. -/
structure Handler where
  split  : Nat
  second : Bool
  prev   : SplitSt
  preds  : BitVec 8
  path   : Path
  win    : Option Nat := none
  /-- R263: the clock in which the trap was taken, on the die that the wave was on then. -/
  entered : Option Nat := none
  deriving DecidableEq, Repr

/-- The modes of a wave (R268). DEBUG_HALTED is `Wave.dbg`, beside the mode it stopped in. -/
inductive Mode where
  | running | handler
  | halted (inHandler : Bool) (split : Nat) (second : Bool)
  deriving DecidableEq, Repr

/-- A message: its sender word and its 16 words (R339). -/
structure Msg where
  sender : Word
  words  : List Word
  deriving DecidableEq, Repr

/-- The resume index of a CSTW (R251, R254), of the path of a split with these lanes, which it keeps where the path comes to stand in the
stack or becomes the split's only one. -/
structure Resume where
  split  : Nat
  lanes  : Lanes
  pc     : PC
  q      : Nat
  deriving DecidableEq, Repr

/-- A wave: the state of R25 to R36, R117, R152, R156 to R160, R209, R256 to R264 and R268. -/
structure Wave where
  width  : Nat
  core   : CoreId
  slot   : Nat
  pos    : Nat
  mode   : Mode := .running
  dbg    : Bool := false
  vregs  : Sparse Word := []
  valloc : Nat
  /-- R156: whether the wave has issued. -/
  started : Bool := false
  sregs  : Sparse Word := []
  salloc : Nat
  preds  : Sparse Lanes := []
  wins   : Sparse Binding := []
  toks   : Sparse Token := []
  splits : List Split
  joins  : List JoinEntry := [{}, {}, {}, {}]
  /-- R33, R34: the lanes that have ended. -/
  ended  : Lanes := 0
  hand   : Option Handler := none
  trapcause : Word := 0
  trappc    : DWord := 0
  trapaddr  : DWord := 0
  record    : FaultRecord := {}
  pending   : Option Trap := none
  /-- R262: whether a debugger has asked for a DEBUG trap that waits until the wave is resident again. -/
  dbgTrap   : Bool := false
  due       : List Trap := []
  resume    : List Resume := []
  sel       : BitVec 3 := 0
  reply     : Option Msg := none
  bars      : Sparse Barrier := []
  /-- R156: the generation and move count recorded for the block and for the cluster level. -/
  recBlock   : Word × Nat := (0, 0)
  recCluster : Word × Nat := (0, 0)
  wbuf   : List Delta := []
  lats   : List FixedWrite := []
  cpys   : Nat := 0
  /-- The OPEN that suspends fetch (R122), or the acquire of a resume that the first issue waits for (R181). -/
  hold   : Option Nat := none
  /-- R119: the lines whose charge is to the core's shared pool, where the wave still holds them. -/
  shared : List Nat := []
  /-- R114: register-evicted. -/
  evicted : Bool := false
  /-- R113: register lines that are not in the cache, by the numbers of `vline` and `sline`. -/
  away    : List Nat := []
  /-- R113: register lines in the cache that have not been written since the image gave them. -/
  clean   : List Nat := []
  /-- R85, R113, R170: the words written to register lines that are not in the cache, since the image had them: register and lane. -/
  newer   : List (RReg × Nat) := []
  /-- R271: written register lines found uncorrectable. -/
  badRegs : List Nat := []
  /-- R218, R236: the STLs that the wave has issued, what it has observed (of each other wave of its block how many STLs its barriers have
  shown it, and each copy, by its mark), and the status registers of its completed copies that nothing has read yet. -/
  stls    : Nat := 0
  seen    : List (Nat × Nat) := []
  unread  : List (Nat × Nat) := []
  age       : Nat := 0
  overdue   : Option Nat := none
  readySince : Option Nat := none
  image  : Nat := 0
  /-- R270: the context pages taken for spills and saved tiles, and for registers added by VREGS (R114), by number in the area. -/
  pages  : List Nat := []
  gpages : List Nat := []
  /-- R270: parked since this clock for want of a context page. -/
  ctxPark : Option Nat := none
  resident : Bool := true
  firmware : Bool := false
  deriving DecidableEq, Repr

/-- R218, R236: the mark of a block's copy `n` where an STL has its wave and its count: no wave has so high a number. -/
def copyMark (n : Nat) : Nat × Nat := (65536 + n, 1)
/-- A pantry share: bytes (unlisted: 0) and offsets found uncorrectable (R229, R271). `hist` are the STLs and copies to a share of a hearth,
for the gathers that have not observed them (R218, R236): offset, the wave and its count or a copy's mark, none for what stood before, and the
byte. -/
structure Share where
  bytes : Cells := []
  bad   : List Nat := []
  hist  : List (Nat × Option (Nat × Nat) × Byte) := []
  deriving DecidableEq, Repr

/-- A copy operation of a block (R232, R233). -/
structure CopyOp where
  n        : Nat
  limit    : Nat
  issued   : Bool := false
  timedOut : Bool := false
  deriving DecidableEq, Repr

/-- A block (R25, R151, R156, R229, R232). -/
structure Block where
  die    : Nat
  base   : Nat
  ncores : Nat
  shares : List Share
  buf    : List Delta := []
  gen    : Word := 0
  moves  : Nat := 0
  /-- R160: the reduction records of the block's waves, in the order in which they were made. -/
  reds   : List RedRec := []
  bars   : Sparse Barrier := []
  copies : List CopyOp := []
  image  : Nat := 0
  pages  : List Nat := []
  deriving DecidableEq, Repr

/-- A cluster group (R25, R151, R156); `since` is the clock of its last admission or resume (R107). -/
structure Group where
  die    : Nat
  base   : Nat
  buf    : List Delta := []
  gen    : Word := 0
  moves  : Nat := 0
  bars   : Sparse Barrier := []
  resident : Bool := true
  since  : Nat := 0
  expired : Bool := false
  deriving DecidableEq, Repr

/-- A barrier entry of a launch record (R96). -/
structure BarEntry where
  bar   : Bar
  lanes : Nat
  first : Nat
  last  : Nat
  deriving DecidableEq, Repr

/-- A range entry of a launch record (R95): the covered region and its mode. -/
structure RangeEntry where
  lo   : Nat
  hi   : Nat
  rd   : Bool
  wr   : Bool
  deriving DecidableEq, Repr

/-- A launch record (R94). -/
structure Record where
  entry   : DWord
  handler : DWord
  ctxBase : Nat
  ctxLen  : Nat
  gx      : Nat
  gy      : Nat
  gz      : Nat
  threads : Nat
  width   : Nat
  vregs   : Nat
  sregs   : Nat
  rcache  : Nat
  pantry  : Nat
  cls     : Nat
  cores   : Nat
  group   : Nat
  share   : Nat
  repeatable : Bool
  check   : Bool
  ftz32   : Bool
  ftz16   : Bool
  arg     : DWord
  ranges  : List RangeEntry
  bars    : List BarEntry
  deriving DecidableEq, Repr

/-- A grid, from its acceptance to its retirement (R39, R97, R98, R115). -/
structure Grid where
  session : Nat
  seq     : Nat
  rec_    : Record
  depth   : Nat
  cls     : Nat
  parent  : Option Nat
  tag     : DWord
  deps    : List Nat
  /-- The clock at which its dependences were met. -/
  met     : Option Nat := none
  /-- The groups admitted so far and the blocks that have ended. -/
  admitted : Nat := 0
  ended   : List Nat := []
  bars    : Sparse Barrier := []
  /-- What is in use of the context area: offset and bytes of each image and page (R103, R268-R270). -/
  ctx     : List (Nat × Nat) := []
  deriving DecidableEq, Repr

/-- A line store entry (R118): its bytes (unlisted: 0) and its RRPV. -/
structure LineEntry where
  bytes : Cells
  rrpv  : Nat
  /-- A line of host memory pinned across an ACQUIRE.SYSTEM of the core: fetched anew once unpinned (R158, R168). -/
  stale : Bool := false
  deriving DecidableEq, Repr

/-- What a core, or a die's L2, has still to apply to a line it holds: a device-level write (R142-R144), or with `drop` the recall for an
engine (R136). -/
structure Update where
  seq   : Nat
  home  : Nat
  line  : Nat
  bytes : Cells
  drop  : Bool := false
  deriving DecidableEq, Repr

/-- A line in a die's L2 (R16, R124): its bytes (unlisted: 0), its RRPV, and, where another die is its home, what is on its way to it
(R144). -/
structure L2Line where
  bytes : Cells
  rrpv  : Nat
  pend  : List Update := []
  deriving DecidableEq, Repr

/-- The place in coherence order that a reader's copy of a byte may not fall behind (R165, R388): the byte, the place, and who
has read or written it there: a wave by block and number, or with none its whole cluster group. -/
structure Floor where
  grid  : Nat
  group : Nat
  wave  : Option (Nat × Nat)
  pa    : Nat
  seq   : Nat
  deriving DecidableEq, Repr

/-- One class of exception counting (R202, R203). -/
structure ExcClass where
  act       : BitVec 2 := 0
  ena       : Bool := true
  threshold : Nat := 0xFFFF
  count     : Nat := 0
  window    : Nat := 0
  started   : Nat := 0
  armed     : Bool := true
  deriving DecidableEq, Repr

/-- A write of MTS to per-core state, which applies at the end of the clock (R336). -/
structure ExcWrite where
  part : Nat
  reg  : Nat
  sel  : Nat
  val  : Word
  deriving DecidableEq, Repr

/-- An event met in this clock and not yet counted (R201, R203): its place in the counting order, its class, who met it and in which slot;
`engine` marks one met at a completion, `atNext` one of an MMA, MXLD or MXST (R204). -/
structure ExcEvent where
  key    : Nat
  cls    : Nat
  wave   : WaveId
  split  : Nat
  second : Bool
  hand   : Bool
  pc     : PC
  lane   : Nat
  engine : Bool
  slot   : Nat := 0
  atNext : Bool := false
  /-- R204: the split that takes the trap: `split`, or the one that a JOIN has merged it into; 4 where it has ended. -/
  heir   : Nat := 0
  deriving DecidableEq, Repr

/-- One issue of a clock (R27, R81, R106): its partition, slot and path, its opcode class, the 8-lane slices of the slot that its
active lanes meet, the number of the issue in the clock, and whether it is part of a combined one that an earlier one began. -/
structure Issue where
  part  : Nat
  slot  : Nat
  path  : PathId
  cls   : Nat
  slices : BitVec 8
  no     : Nat := 0
  joined : Bool := false
  deriving DecidableEq, Repr

/-- A core (R14, R15, R118, R142, R202, R388). -/
structure Core where
  rcache : Nat := 6
  pantry : Nat := 3
  store  : Tbl Nat LineEntry := []
  floors : List Floor := []
  updq   : List Update := []
  /-- R74, R169: code lines held, by address space and line number, with whether the line was found uncorrectable. -/
  fetch  : Tbl (Nat × Nat) (List Byte × Bool) := []
  exc    : List ExcClass := [{}, {}, {}, {}, {}, {}]
  fired  : BitVec 6 := 0
  /-- R203, R335: the events of this clock, counted at its end. -/
  evq    : List ExcEvent := []
  excWrites : List ExcWrite := []
  /-- Issues made in this clock (R27, R81, R106). -/
  issues : List Issue := []
  /-- The launch this core drains for (R105). -/
  drain  : Option Nat := none
  deriving DecidableEq, Repr

/-- A tile of a hearth (R208): cells are keyed by 128 × row + column. -/
structure Tile where
  owner : Option WaveId := none
  cells : Sparse Word := []
  bad   : List Nat := []
  deriving DecidableEq, Repr

/-- What a matrix operation does (R217-R222). -/
inductive MxKind where
  | mma (a b ix fb : Nat) (semi : Semi) (idx : Bool)
  | ld (addr stride : Nat) (ty : Ty)
  | st (addr stride : Nat) (ty : Ty) (rnd : Rnd) (rel : Bool)
  | z (fill : Fill) (rel : Bool)
  deriving DecidableEq, Repr

/-- A matrix operation: its operation number, token and tile, the values read at issue, whether it has begun at the head of the
queue, the format block copy, the groups fed (R224) with their events, and the operand bytes written while it was pending, by
hearth address (R218). -/
structure MxOp where
  id     : Nat
  tok    : BitVec 3
  tile   : Nat
  kind   : MxKind
  begun  : Bool := false
  fblock : Option (List Byte) := none
  fed    : Nat := 0
  ev     : BitVec 6 := 0
  dirty  : List Nat := []
  /-- The cells that an MXST read when it reached the head of the queue. -/
  cells  : Option (Sparse Word) := none
  /-- R271: whether what the operand latch holds of it was found uncorrectable. -/
  spoiled : Bool := false
  /-- R218: what its wave had observed at the issue. -/
  seen   : List (Nat × Nat) := []
  deriving DecidableEq, Repr

/-- A hearth (R205-R208). -/
structure Hearth where
  tiles : List Tile := [{}, {}, {}, {}]
  queue : List MxOp := []
  deriving DecidableEq, Repr

/-- An OPEN or REOPEN in flight (R121-R127, R139). -/
structure OpenOp where
  reopen   : Bool
  win      : BitVec 4
  lanes    : Lanes
  /-- Lanes whose translation waits for the host, with their addresses (R146). -/
  todo     : List (Nat × DWord)
  /-- Lanes translated and not yet bound: lane, address, physical line. -/
  lines    : List (Nat × DWord × Nat)
  /-- Lines charged and not yet obtained. -/
  need     : List Nat := []
  /-- The lowest line that was not obtained for want of a credit (R125). -/
  short    : Option Nat := none
  /-- Codes of the other refusals met (R126, R139). -/
  codes    : List Nat := []
  bound    : Lanes := 0
  /-- Lanes that faulted before the last check was decided, and the address of the lowest. -/
  faulted  : List (Nat × DWord) := []
  /-- The fault that stops the executing path at the OPEN (R123). -/
  stop     : Option (Lanes × DWord) := none
  /-- Whether the last translation check has passed or failed (R122). -/
  checked  : Bool := false
  st       : BitVec 7
  pd       : BitVec 3
  write    : Bool
  rd       : BitVec 2
  deadline : Nat
  deriving DecidableEq, Repr

/-- One lane of a strong access or an ATOM: lane, virtual and physical address, operand values. -/
structure LaneAcc where
  lane : Nat
  va   : Nat
  pa   : Nat
  b    : DWord := 0
  c    : DWord := 0
  bytes : List Byte := []
  deriving DecidableEq, Repr

/-- A bin set (R239). -/
structure BinSet where
  target  : Nat
  regions : Nat
  cap     : Nat
  area    : Nat
  tickets : Nat
  deriving DecidableEq, Repr

/-- How far a BINA has come (R242): the bin set that its descriptor gave, the codes of the lanes refused and the places of the records
appended, by physical address. -/
structure BinWalk where
  set   : BinSet
  codes : List Nat := []
  recs  : List Nat := []
  deriving DecidableEq, Repr

/-- What an operation in flight does, with the values it read at issue. -/
inductive OpKind where
  | open (o : OpenOp)
  | commit (level : Nat) (strict : Option (BitVec 7)) (st : BitVec 7) (snap : List Delta)
  | abort (level : Nat) (st : BitVec 7)
  /-- `silent` is the acquire of a resume, which records and writes nothing (R181); `off` are the dies that went offline while
  their replies were awaited (R158). -/
  | acquire (level : Nat) (st : BitVec 7) (mark : Option Nat) (silent : Bool) (off : BitVec 4)
  | strongLoad (scope : Nat) (accs : List LaneAcc) (ty : Ty) (size : Nat) (scalar : Bool) (d : Nat)
  | strongStore (scope : Nat) (accs : List LaneAcc)
  | atom (scope : Nat) (accs : List LaneAcc) (ty : Ty) (op : AOp) (d : Nat) (pd : BitVec 3)
  | arrival (bar : Bar) (count : Nat) (lanes : Lanes) (d : BitVec 7) (sync : Option Nat)
  | cpy (n : Nat) (dir : CpyDir) (src dst bytes : Nat) (bar : Option Bar) (st : BitVec 7) (done : Nat)
      (stop : Option (Nat × Nat × Nat))
  /-- `accs` are the lanes that have still to take their tickets; `walk`, once the descriptor is read, is how far it has come. -/
  | bina (accs : List LaneAcc) (desc : Nat) (ty : Ty) (op : AOp) (st : BitVec 7) (walk : Option BinWalk)
  /-- `replay`, once the replay runs: the region, its records as they stood, each with the code that refuses it or 0, and whether a record
  of an incomplete BINA is among them (R245). -/
  | binr (desc g : Nat) (reset : Bool) (st : BitVec 7) (replay : Option (Nat × List (Nat × List Byte) × Bool))
  | matrix (tok : BitVec 3)
  | launch (addr : Nat) (entry : Option DWord) (st : BitVec 7)
  | msgs (box : Word) (msg : Msg) (st : BitVec 7)
  | xcinv (space : Nat) (va size count : Nat) (st : BitVec 7)
  deriving DecidableEq, Repr

/-- An operation in flight (R40, R85, R159, R237). `done` stays in the list while an earlier operation of the same in-flight
path is outstanding (R237). -/
structure Op where
  id     : Nat
  wave   : WaveId
  split  : Nat
  second : Bool
  pc     : PC
  core   : CoreId
  space  : Nat
  kind   : OpKind
  done   : Bool := false
  /-- The place of the issue, for the record of a fault found after the wave has ended. -/
  slot   : Nat := 0
  /-- R15: the first of the slot's 64 lanes that its wave took at the issue. -/
  first  : Nat := 0
  /-- R204: the split in which the lanes of the issue go on: `split`, or the one that a JOIN has merged it into; 4 where it has ended. -/
  heir   : Nat := 0
  /-- Pages of host memory that the host has refused to it under PRI (R146). -/
  denied : List Nat := []
  /-- R163: of an ATOM or a strong store, its bytes that the wave has not stored to since it issued. -/
  watch  : Watch := {}
  /-- R155, R162: of a COMMIT, whether a record that it drained at issue faulted, and whether one met an offline die. -/
  pre    : Bool × Bool := (false, false)
  /-- R218: of an arrival, the STLs that its wave had issued before. -/
  stls   : Nat := 0
  /-- R48: of a BARSYNC whose limit had run when its arrival was registered: the generation that it joined, on which the end of that clock
  decides. -/
  joined : Option Word := none
  /-- R234: of a slice of a copy, what it has read of a source line beyond its last piece. -/
  line   : List Byte := []
  deriving DecidableEq, Repr

/-- A page of an address space (R145). -/
structure Page where
  va    : Nat
  size  : Nat
  pa    : Nat
  perms : Perms
  deriving DecidableEq, Repr

/-- A ring in host memory (R279). -/
structure Ring where
  spec : RingSpec
  prod : Nat := 0
  cons : Nat := 0
  lost : Nat := 0
  deriving DecidableEq, Repr

/-- A reply: its session, its slot or peer, tag, status word and 112 result bytes (R278, R279). -/
structure Reply where
  session : Nat
  caller  : Option Caller
  tag     : DWord
  /-- The sequence number of its frame. -/
  seq     : Word := 0
  status  : Word
  result  : List Byte
  deriving DecidableEq, Repr

/-- A session (R93, R97, R107, R278-R280). The management session has number 0 and no rings. -/
structure Session where
  rings   : Option (Ring × Ring)
  peer    : Option (Nat × Nat)
  space   : Nat
  cls     : Nat
  /-- The number of its latest launch (R97) and of its latest frame (R278), with the reply to that frame. -/
  seq     : Word := 0
  fseq    : Word := 0
  /-- R278: whether it has had a frame. -/
  begun   : Bool := false
  last    : Option Reply := none
  slice   : Nat := 4000000
  launches : Nat := 0
  closing : Option Reply := none
  deriving DecidableEq, Repr

/-- A frame taken from a letterbox slot and not yet served (R277). -/
structure Frame where
  slot      : Nat
  bytes     : Cells
  rewritten : Bool := false
  /-- Whether its call has been served, its reply being still to come or held. -/
  served    : Bool := false
  deriving DecidableEq, Repr

/-- A frame sent to a peer (R283): its peer, its contents and whether a reply to it is awaited. -/
structure PeerFrame where
  id     : Nat
  addr   : Nat
  port   : Nat
  /-- R283: its UDP destination port. -/
  udp    : Nat := 49320
  header : List Byte
  bytes  : List Byte
  session : Nat := 0
  va     : Nat := 0
  resent : Nat := 0
  deriving DecidableEq, Repr

/-- A MEMCPY in service (R234, R280, R283): its reply to be, the die whose copy engine serves it, its ends, how far it has come, the DATA
frame whose reply it awaits with the bytes in it, and the pages of host memory refused to it under PRI (R146). -/
structure HostCopy where
  id     : Nat
  reply  : Reply
  die    : Nat
  space  : Nat
  src    : CopyEnd
  dst    : CopyEnd
  bytes  : Nat
  done   : Nat := 0
  frame  : Option (Nat × Nat) := none
  /-- R234: what it has read of a source line beyond its last piece. -/
  line   : List Byte := []
  denied : List Nat := []
  deriving DecidableEq, Repr

/-- A corrected-error counter (R273). -/
structure CeCounter where
  count     : Nat := 0
  threshold : Nat := 0xFFFF
  window    : Nat := 0
  started   : Nat := 0
  armed     : Bool := true
  deriving DecidableEq, Repr

/-- A die (R10-R18, R24, R271-R275, R284-R286, R339). -/
structure Die where
  online   : Bool := true
  resetting : Bool := false
  /-- R275: the reply that its DIE_RESET has still to draw. -/
  resetReply : Option Reply := none
  power    : Power := .p0
  toPower  : Option Power := none
  retired  : List Nat := []
  spares   : Nat := 2
  failedLanes   : List (Nat × Nat) := []
  repairedLanes : List (Nat × Nat) := []
  hbmSpared : List (Nat × Nat) := []
  digest   : BitVec 256
  version  : BitVec 16 := 0
  minimum  : BitVec 16
  staged   : Option (List Byte) := none
  ce       : Tbl Nat CeCounter := []
  boxes    : List (List Msg) := [[], [], [], []]
  temp     : BitVec 16 := 0
  /-- R22, R286: the clocks of the die's synchronous clock so far, and how far the next has come, in fifths of a nominal clock. -/
  clk      : Nat := 0
  phase    : Nat := 0
  /-- The clock of its last reset (R334). -/
  base     : Nat := 0
  /-- R146: host translations cached, by space and 4 KiB page: physical page and permissions, none for a refused page. -/
  ats      : Tbl (Nat × Nat) (Option (Nat × Perms)) := []
  /-- R386: host pages of translations that the split of a larger page dropped, while lines of them may still be held. -/
  dropped  : List ((Nat × Nat) × Nat) := []
  /-- R146: page requests outstanding under PRI. -/
  pri      : List (Nat × Nat) := []
  deriving DecidableEq, Repr

/-- What the surroundings bring about (log entry 1). -/
inductive Input where
  /-- An event of the opcode table. -/
  | event (i : Instr)
  /-- R13, R341: a firmware wave of a service core takes the oldest message of the core's mailbox (log entry 10). -/
  | fwTake (die core : Nat)
  /-- R13, R339, R340: a firmware wave of a service core, in a slot and a place of it, sends a message (log entry 10). -/
  | fwSend (die core slot pos : Nat) (hand : Bool) (box : Word) (words : List Word)
  /-- R283: a management call, whose code R280 does not give, sets the UDP port (log entry 43). -/
  | udpPort (port : BitVec 16)
  deriving DecidableEq, Repr

/-- The machine. -/
structure State where
  /-- Time, in clocks of 2.0 GHz (R286). -/
  now    : Nat
  mem    : Cells
  d0held : Tbl Nat Cells
  /-- R16: the lines of each die's L2, by die and physical line. -/
  l2     : Tbl (Nat × Nat) L2Line
  badLines : List Nat
  owned  : Tbl Nat Nat
  spaces : Tbl Nat (List Page)
  dies   : List Die
  cores  : Tbl CoreId Core
  hearths : Tbl (Nat × Nat) Hearth
  waves  : Tbl WaveId Wave
  blocks : Tbl (Nat × Nat) Block
  groups : Tbl (Nat × Nat) Group
  grids  : Tbl Nat Grid
  ops    : List Op
  suspended : List (WaveId × MxOp)
  savedTiles : List (WaveId × Nat × Tile)
  sessions : Tbl Nat Session
  opens  : List (Option (Nat × Nat) × DWord × Reply)
  letterbox : Cells
  frames : List Frame
  heldReplies : List Reply
  mgmt   : List Reply
  records : List (Nat × FaultRecord)
  msix   : List Nat
  peerOut : List PeerFrame
  copies : List HostCopy
  /-- R278, R283: the sequence number of the latest frame sent to a peer's session. -/
  peerSeq : Tbl (Nat × Nat × Nat) Word
  /-- R282: the page requests (die, space, page) that wait for one of the 512 outstanding to be answered. -/
  priWait : List (Nat × Nat × Nat)
  /-- R147, R282: the ATS invalidation completions sent to the host: space, base, page size and count of each. -/
  atsDone : List (Nat × Nat × Nat × Nat)
  udpPort : Nat
  lastRead : List Byte
  seq    : Nat
  /-- The model's own: events the surroundings and the engines bring about, each with its clock (log entry 1). -/
  inputs : List (Nat × Input)
  /-- The model's own: whether engines and networks complete as soon as they may (log entry 1). -/
  auto   : Bool
  /-- The model's own: the counter that free values are drawn with (log entry 2). -/
  fresh  : Nat
  /-- The model's own: the path whose instruction is executing (log entry 3). -/
  cur    : PathId
  nextOp : Nat
  nextGrid : Nat
  nextSession : Nat
  nextAge : Nat
  deriving DecidableEq, Repr

/-- A die after power-on (R286), with the firmware its ROM verified. -/
def Die.fresh (d : Nat) : Die := { digest := Config.firstImageDigest d, minimum := Config.firstMinimum d }

/-- The machine right after power-on reset. -/
def State.reset : State where
  now := 0
  mem := []
  d0held := []
  l2 := []
  badLines := []
  owned := []
  spaces := []
  dies := [Die.fresh 0, Die.fresh 1, Die.fresh 2, Die.fresh 3]
  cores := []
  hearths := []
  waves := []
  blocks := []
  groups := []
  grids := []
  ops := []
  suspended := []
  savedTiles := []
  sessions := [(0, { rings := none, peer := none, space := 0, cls := 0 })]
  opens := []
  letterbox := []
  frames := []
  heldReplies := []
  mgmt := []
  records := []
  msix := []
  peerOut := []
  copies := []
  peerSeq := []
  priWait := []
  atsDone := []
  udpPort := 49320
  lastRead := []
  seq := 0
  inputs := []
  auto := true
  fresh := 0
  cur := ⟨⟨0, 0, 0⟩, 0, false⟩
  nextOp := 1
  nextGrid := 0
  nextSession := 1
  nextAge := 0

end Sys2Proof.Machine
end

