-- ==== Sys2Proof/Machine/Ops.lean ====
section
/-! DEFINITION. The named operations over tables, memory, waves, barriers, records and rings, and taking a trap and returning
from one (R256-R261, R374). -/

namespace Sys2Proof.Machine

/-! Tables and sparse maps. -/

/-- The record of a key. -/
def tget {κ α : Type} [DecidableEq κ] : Tbl κ α → κ → Option α
  | [], _ => none
  | (j, x) :: t, k => if j = k then some x else tget t k

/-- A table with the record of a key set; a new key goes to the end. -/
def tset {κ α : Type} [DecidableEq κ] : Tbl κ α → κ → α → Tbl κ α
  | [], k, x => [(k, x)]
  | (j, y) :: t, k, x => if j = k then (k, x) :: t else (j, y) :: tset t k x

/-- A table without a key. -/
def tdel {κ α : Type} [DecidableEq κ] : Tbl κ α → κ → Tbl κ α
  | [], _ => []
  | (j, y) :: t, k => if j = k then t else (j, y) :: tdel t k

/-- A list with an element added unless it stands there. -/
def addNew {α : Type} [DecidableEq α] (l : List α) (x : α) : List α := if x ∈ l then l else l ++ [x]
/-- The distinct elements of a list. -/
def distinct {α : Type} [DecidableEq α] (l : List α) : List α := l.foldl addNew []

/-- A sparse map's value at a key. -/
def sget {α : Type} (d : α) : Sparse α → Nat → α
  | [], _ => d
  | (j, x) :: t, k => if j = k then x else sget d t k

/-- A list of cells with a cell set: keys strictly rising, and every value kept. -/
def cset {α : Type} : List (Nat × α) → Nat → α → List (Nat × α)
  | [], k, x => [(k, x)]
  | (j, y) :: t, k, x => if j = k then (k, x) :: t else if k < j then (k, x) :: (j, y) :: t else (j, y) :: cset t k x

/-- A sparse map with the value of a key set: keys stay strictly rising, and a key whose value is the default is dropped. -/
def sset {α : Type} [DecidableEq α] (d : α) (m : Sparse α) (k : Nat) (x : α) : Sparse α :=
  if x = d then m.filter fun c => c.1 != k else cset m k x

/-- The value of a cell, if it is listed. -/
def cget {α : Type} : List (Nat × α) → Nat → Option α
  | [], _ => none
  | (j, x) :: t, k => if j = k then some x else cget t k

/-- The list with element `n` replaced by what `f` makes of it. -/
def lmod {α : Type} (l : List α) (n : Nat) (f : α → α) : List α :=
  match l, n with
  | [], _ => []
  | x :: t, 0 => f x :: t
  | x :: t, n + 1 => x :: lmod t n f

/-- An element inserted before the first one that it may stand before. -/
def insertBy {α : Type} (le : α → α → Bool) (x : α) : List α → List α
  | [] => [x]
  | y :: t => if le x y then x :: y :: t else y :: insertBy le x t
/-- A list in order; elements of equal place keep theirs. -/
def sortBy {α : Type} (le : α → α → Bool) (l : List α) : List α := l.foldr (insertBy le) []

/-- A list of partial steps in turn. -/
def stepsM {σ α : Type} (f : σ → α → Option σ) : List α → σ → Option σ
  | [], s => some s
  | x :: t, s => (f s x).bind (stepsM f t)

/-! Bytes. -/

/-- The bytes of a natural number, the least significant first (R3). -/
def leBytes : Nat → Nat → List Byte
  | 0, _ => []
  | n + 1, x => BitVec.ofNat 8 x :: leBytes n (x / 256)

/-- The natural number of bytes, the least significant first (R3). -/
def ofLe : List Byte → Nat
  | [] => 0
  | b :: t => b.toNat + 256 * ofLe t

/-! Lanes. -/

/-- The lanes of a mask, ascending. -/
def lanesOf (m : Lanes) : List Nat := (List.range 64).filter fun i => m.getLsbD i
/-- The lowest lane of a mask. -/
def lowest (m : Lanes) : Option Nat := (lanesOf m).head?
/-- The mask of a list of lanes. -/
def maskOf (l : List Nat) : Lanes := l.foldl (fun m i => m ||| BitVec.twoPow 64 i) 0
/-- Every lane of a wave of this width. -/
def allLanes (w : Nat) : Lanes := BitVec.ofNat 64 (2 ^ w - 1)

/-! Physical memory (R17). -/

/-- The size of one die's range: 192 GiB. -/
def dieSpan : Nat := 0x3000000000
/-- The first address of host memory: 2^51. -/
def hostBase : Nat := 2 ^ 51
/-- The end of the physical space: 2^52. -/
def physEnd : Nat := 2 ^ 52
/-- Whether a physical address is host memory. -/
def isHost (pa : Nat) : Bool := decide (hostBase ≤ pa ∧ pa < physEnd)
/-- The home of a line for coherence: the die of its range, or D0 for host memory (R17, R142); none outside (R19). -/
def homeOf (pa : Nat) : Option Nat :=
  if pa < 4 * dieSpan then some (pa / dieSpan) else if isHost pa then some 0 else none

/-- R18: the stack of its home die that holds an address of device memory. -/
def stackOf (pa : Nat) : Nat := pa % dieSpan / 4096 % 3

/-- What an unlisted byte of memory reads as (log entry 5). -/
def memDefault : Byte := 0

/-- Whether memory has its canonical form: addresses strictly rising, and no entry that reads as an unlisted one. -/
def Memory.wf (m : Cells) : Bool :=
  m.all (fun c => c.2 != memDefault) && (m.map Prod.fst).Pairwise (· < ·)

/-- One byte of physical memory: HBM, or the host's own memory. -/
def State.rd (s : State) (pa : Nat) : Byte := sget memDefault s.mem pa
/-- One byte of physical memory written. -/
def State.wrByte (s : State) (pa : Nat) (b : Byte) : State := { s with mem := sset memDefault s.mem pa b }
/-- Bytes of physical memory written, from an address up. -/
def State.wrBytes (s : State) : Nat → List Byte → State
  | _, [] => s
  | pa, b :: t => (s.wrByte pa b).wrBytes (pa + 1) t

/-- One byte as the device level holds it: for host memory, what D0 holds of the line first (R142, R168). -/
def State.devRd (s : State) (pa : Nat) : Byte :=
  if isHost pa then
    match (tget s.d0held (pa / 128)).bind (cget · (pa % 128)) with
    | some b => b
    | none => s.rd pa
  else s.rd pa
/-- `n` bytes as the device level holds them. -/
def State.devRdN (s : State) (pa n : Nat) : List Byte := (List.range n).map fun k => s.devRd (pa + k)
/-- The 128 bytes of a line at the device level, as a sparse line. -/
def State.devLine (s : State) (line : Nat) : Cells :=
  (List.range 128).filterMap fun k => let b := s.devRd (128 * line + k); if b = 0 then none else some (k, b)

/-! Dies and cores. -/

/-- A die. -/
def State.die (s : State) (d : Nat) : Die := s.dies.getD d (Die.fresh d)
/-- A die changed. -/
def State.modDie (s : State) (d : Nat) (f : Die → Die) : State := { s with dies := lmod s.dies d f }
/-- R22, R286: fifths of a nominal clock by which a die's clock goes on in one nominal clock: 2.0, 1.6 and 1.2 GHz, and gated. -/
def Power.rate : Power → Nat
  | .p0 => 5
  | .p1 => 4
  | .p2 => 3
  | .idle => 0
/-- R22: whether a die's next clock begins with the next nominal clock. -/
def Die.edge (d : Die) : Bool := decide (5 ≤ d.phase + Power.rate d.power)
/-- R22: whether a clock of a die ends with this nominal clock; that of a gated one has ended. -/
def Die.ends (d : Die) : Bool := d.edge || d.power == .idle
/-- R22: a die one nominal clock on. -/
def Die.tick (d : Die) : Die :=
  { d with clk := if d.edge then d.clk + 1 else d.clk, phase := (d.phase + Power.rate d.power) % 5 }
/-- R22: the clock of a die. -/
def State.clk (s : State) (d : Nat) : Nat := (s.die d).clk
/-- Whether a die is online and not in warm reset (R275). -/
def State.up (s : State) (d : Nat) : Bool := (s.die d).online && !(s.die d).resetting
/-- A core: one that no table lists is as reset leaves it. -/
def State.core (s : State) (c : CoreId) : Core := (tget s.cores c).getD {}
/-- A core changed. -/
def State.modCore (s : State) (c : CoreId) (f : Core → Core) : State := { s with cores := tset s.cores c (f (s.core c)) }
/-- The line store's lines (R14, R118). -/
def Core.lines (c : Core) : Nat := 8 * (3072 - 256 * c.rcache - 256 * c.pantry - 256)
/-- A hearth. -/
def State.hearth (s : State) (k : Nat × Nat) : Hearth := (tget s.hearths k).getD {}
/-- A hearth changed. -/
def State.modHearth (s : State) (k : Nat × Nat) (f : Hearth → Hearth) : State :=
  { s with hearths := tset s.hearths k (f (s.hearth k)) }

/-! Waves, blocks, groups and grids. -/

/-- A wave. -/
def State.wave (s : State) (w : WaveId) : Option Wave := tget s.waves w
/-- R22: the clock of the die of a wave's core. -/
def State.clkOf (s : State) (w : WaveId) : Nat := s.clk (((s.wave w).map fun x => x.core.die).getD 0)
/-- R48: whether the clock of a wave's core ends with this nominal clock. -/
def State.endsOf (s : State) (w : WaveId) : Bool := (s.die (((s.wave w).map fun x => x.core.die).getD 0)).ends
/-- A wave set. -/
def State.setWave (s : State) (w : WaveId) (x : Wave) : State := { s with waves := tset s.waves w x }
/-- A wave changed. -/
def State.modWave (s : State) (w : WaveId) (f : Wave → Wave) : State :=
  match s.wave w with
  | some x => s.setWave w (f x)
  | none => s
/-- A block. -/
def State.block (s : State) (g b : Nat) : Option Block := tget s.blocks (g, b)
/-- A block changed. -/
def State.modBlock (s : State) (g b : Nat) (f : Block → Block) : State :=
  match s.block g b with
  | some x => { s with blocks := tset s.blocks (g, b) (f x) }
  | none => s
/-- A cluster group. -/
def State.group (s : State) (g c : Nat) : Option Group := tget s.groups (g, c)
/-- A cluster group changed. -/
def State.modGroup (s : State) (g c : Nat) (f : Group → Group) : State :=
  match s.group g c with
  | some x => { s with groups := tset s.groups (g, c) (f x) }
  | none => s
/-- A grid. -/
def State.grid (s : State) (g : Nat) : Option Grid := tget s.grids g
/-- A grid changed. -/
def State.modGrid (s : State) (g : Nat) (f : Grid → Grid) : State :=
  match s.grid g with
  | some x => { s with grids := tset s.grids g (f x) }
  | none => s
/-- The blocks of a grid (R94). -/
def Record.nblocks (r : Record) : Nat := r.gx * r.gy * r.gz
/-- The waves of a block (R96). -/
def Record.nwaves (r : Record) : Nat := r.threads / r.width
/-- The blocks of cluster group `c` (R101). -/
def Record.groupBlocks (r : Record) (c : Nat) : List Nat :=
  (List.range r.group).filterMap fun k => if c * r.group + k < r.nblocks then some (c * r.group + k) else none
/-- The cluster group of a block (R101). -/
def State.groupOf (s : State) (g b : Nat) : Nat := match s.grid g with | some x => b / x.rec_.group | none => b
/-- The waves of a block that have not ended. -/
def State.wavesOf (s : State) (g b : Nat) : List WaveId :=
  (s.waves.map Prod.fst).filter fun w => w.grid == g && w.block == b
/-- The waves on a core. -/
def State.wavesOn (s : State) (c : CoreId) : List (WaveId × Wave) :=
  s.waves.filter fun x => x.2.core == c && x.2.resident
/-- The address space of a grid's session (R145). -/
def State.spaceOf (s : State) (g : Nat) : Nat :=
  match (s.grid g).bind fun x => tget s.sessions x.session with
  | some x => x.space
  | none => 0
/-- Scheduler partition of a slot (R15, R28). -/
def Wave.part (w : Wave) : Nat := w.slot / 24

/-! Paths of a wave. -/

/-- The path of a split. -/
def Split.path (x : Split) (second : Bool) : Path := if second then x.p2.getD {} else x.p1
/-- A path of a split changed. -/
def Split.modPath (x : Split) (second : Bool) (f : Path → Path) : Split :=
  if second then { x with p2 := x.p2.map f } else { x with p1 := f x.p1 }
/-- R29's PARKED_WAIT: RUNNING, with every live path waiting or stopped. -/
def Split.parkedWait (x : Split) : Bool :=
  x.st == .running && (x.p1.wait.isSome || x.p1.atJoin) && (match x.p2 with | some p => p.wait.isSome || p.atJoin | none => true)
    && (x.p1.wait.isSome || (x.p2.bind Path.wait).isSome)
/-- A split of a wave. -/
def Wave.split (w : Wave) (k : Nat) : Split := w.splits.getD k {}
/-- A split of a wave changed. -/
def Wave.modSplit (w : Wave) (k : Nat) (f : Split → Split) : Wave := { w with splits := lmod w.splits k f }
/-- The executing path: the handler's in handler mode. -/
def Wave.pathAt (w : Wave) (k : Nat) (second hand : Bool) : Path :=
  if hand then (w.hand.map Handler.path).getD {} else (w.split k).path second
/-- The executing path changed. -/
def Wave.modPath (w : Wave) (k : Nat) (second hand : Bool) (f : Path → Path) : Wave :=
  if hand then { w with hand := w.hand.map fun h => { h with path := f h.path } }
  else w.modSplit k fun x => x.modPath second f
/-- Every lane that has not ended: the lanes of the splits, their second paths and their stacks. -/
def Split.lanes (x : Split) : Lanes :=
  if x.st = .free then 0
  else x.p1.mask ||| ((x.p2.map Path.mask).getD 0) ||| x.stack.foldl (fun m e => m ||| e.mask) 0
/-- The lanes of a wave that have not ended. -/
def Wave.lanes (w : Wave) : Lanes := w.splits.foldl (fun m x => m ||| x.lanes) 0
/-- Whether a wave runs in handler mode (R256). -/
def Wave.inHandler (w : Wave) : Bool := w.mode == .handler

/-! Registers: one home each, one operation to read and one to write. -/

/-- Vector register `r` of a lane. -/
def Wave.vreg (w : Wave) (r lane : Nat) : Word := sget 0 w.vregs (r * 64 + lane)
/-- Scalar register `r`. -/
def Wave.sreg (w : Wave) (r : Nat) : Word := sget 0 w.sregs r
/-- The lanes in which predicate `p` is true: p7 is always true (00, Names). -/
def Wave.predMask (w : Wave) (p : Nat) : Lanes := if p = 7 then BitVec.allOnes 64 else sget 0 w.preds p
/-- The register line of a scalar. -/
def sline (r : Nat) : Nat := r / 32
/-- The register line of a lane of a vector register (R112, R268), numbered behind the four scalar lines. -/
def vline (width r lane : Nat) : Nat := 4 + (r * width + lane) / 32
/-- R113: the words of register lines outside the cache that have been written, with one more where its line is not there. -/
def Wave.noteNewer (w : Wave) (line : Nat) (r : RReg) (lane : Nat) : List (RReg × Nat) :=
  if w.away.contains line && !w.newer.contains (r, lane) then w.newer ++ [(r, lane)] else w.newer
/-- R113: the lines in the cache that the image still agrees with once one of them has been written. -/
def Wave.soil (w : Wave) (line : Nat) : List Nat := w.clean.filter fun l => l != line
/-- A register of a lane written; a write to pt is discarded (R311, R344, R358). -/
def Wave.wrReg (w : Wave) (r : RReg) (lane : Nat) (x : Word) : Wave :=
  match r with
  | .v n => { w with vregs := sset 0 w.vregs (n * 64 + lane) x, newer := w.noteNewer (vline w.width n lane) r lane
                     clean := w.soil (vline w.width n lane) }
  | .s n => { w with sregs := sset 0 w.sregs n x, newer := w.noteNewer (sline n) r 0, clean := w.soil (sline n) }
  | .p n =>
    if n = 7 then w
    else
      let m := w.predMask n
      let bit : Lanes := BitVec.twoPow 64 lane
      { w with preds := sset 0 w.preds n (if x.getLsbD 0 then m ||| bit else m &&& ~~~bit) }
/-- A scalar register written. -/
def Wave.wrS (w : Wave) (r : BitVec 7) (x : Word) : Wave := w.wrReg (.s r.toNat) 0 x
/-- A scalar pair written (R4). -/
def Wave.wrSPair (w : Wave) (r : BitVec 7) (x : DWord) : Wave :=
  (w.wrReg (.s r.toNat) 0 (x.truncate 32)).wrReg (.s (r.toNat + 1)) 0 (x.extractLsb' 32 32)

/-- One fixed-latency result lands (R84). A handler's own predicate lands in the handler's predicates (R257). -/
def Wave.land1 (w : Wave) (f : FixedWrite) : Wave :=
  match f.reg, f.hand with
  | .p n, true =>
    { w with hand := w.hand.map fun h =>
        { h with preds := if n = 7 then h.preds else
            match f.vals.head? with
            | some (_, x) => if x.getLsbD 0 then h.preds ||| BitVec.twoPow 8 n else h.preds &&& ~~~(BitVec.twoPow 8 n)
            | none => h.preds } }
  | r, _ => f.vals.foldl (fun w v => w.wrReg r v.1 v.2) w

/-- A scalar register. -/
def RReg.isS : RReg → Bool
  | .s _ => true
  | _ => false
/-- R35, R85: whether an earlier result lands no later than another: it is to the same register and, for a vector or a predicate, of the
same path or in a lane that both write, whose program order they follow. -/
def FixedWrite.before (x f : FixedWrite) : Bool :=
  x.reg == f.reg && x.hand == f.hand &&
    (f.reg.isS || (x.split == f.split && x.second == f.second && x.place == f.place) || f.vals.any fun v => x.vals.any fun u => u.1 == v.1)
/-- R85: the results that land when those that `p` names do, and those that stay: what comes before one that lands, and so on, lands too. The
rules do not say whether the younger result waits or the older one comes early: the model lands both with the first that is due (DESIGN
CHOICE, log entry 93). -/
def landSplit (p : FixedWrite → Bool) (l : List FixedWrite) : List FixedWrite × List FixedWrite :=
  l.foldr (fun x r => if p x || r.1.any x.before then (x :: r.1, r.2) else (r.1, x :: r.2)) ([], [])
/-- Those results land, in issue order. -/
def Wave.landThose (w : Wave) (p : FixedWrite → Bool) : Wave :=
  let r := landSplit p w.lats
  { r.1.foldl Wave.land1 w with lats := r.2 }
/-- R89: every fixed-latency result of the wave lands, in issue order (R85). -/
def Wave.landAll (w : Wave) : Wave := { w.lats.foldl Wave.land1 w with lats := [] }

/-! Bindings (R117). -/

/-- Lane `l`'s binding of window `n` (R117). -/
def Wave.bind (w : Wave) (l n : Nat) : Binding := sget {} w.wins (l * 16 + n)
/-- A binding set. -/
def Wave.setBind (w : Wave) (l n : Nat) (b : Binding) : Wave := { w with wins := sset {} w.wins (l * 16 + n) b }

/-! Status words (R49). -/

/-- A status word: code and detail. -/
def status (code detail : Nat) : Word := BitVec.ofNat 32 (code + 256 * detail)
/-- A detail that saturates at 0xFF_FFFF (R155, R235). -/
def sat24 (n : Nat) : Nat := min n 0xFFFFFF
/-- Codes of R49. -/
def cOK : Nat := 0x00
/-- TIMEOUT. -/
def cTIMEOUT : Nat := 0x01
/-- FAULTED. -/
def cFAULTED : Nat := 0x02
/-- NOT_MEMBER. -/
def cNOT_MEMBER : Nat := 0x03
/-- ALREADY_ARRIVED. -/
def cALREADY : Nat := 0x04
/-- NO_EFFECT. -/
def cNO_EFFECT : Nat := 0x05
/-- PARTIAL. -/
def cPARTIAL : Nat := 0x06
/-- NO_RESOURCE. -/
def cNO_RESOURCE : Nat := 0x07
/-- DEPTH_LIMIT. -/
def cDEPTH : Nat := 0x08
/-- CONFLICT. -/
def cCONFLICT : Nat := 0x09
/-- PARENT_CHANGED. -/
def cPARENT : Nat := 0x0A
/-- DIE_OFFLINE. -/
def cOFFLINE : Nat := 0x0B
/-- DATA_ERROR. -/
def cDATA : Nat := 0x0C
/-- BAD_FRAME (R278). -/
def cBAD_FRAME : Nat := 0x70
/-- NO_SESSION (R278). -/
def cNO_SESSION : Nat := 0x71
/-- BUSY (R278). -/
def cBUSY : Nat := 0x72

/-! Records and rings (R265-R267, R279). -/

/-- The 64 bytes of a fault record (R265). -/
def FaultRecord.toBytes (r : FaultRecord) : List Byte :=
  leBytes 1 r.type ++ leBytes 1 r.sub ++ leBytes 1 r.status ++
  leBytes 1 (r.field.code + (if r.retired then 4 else 0) + (if r.imprecise then 8 else 0) + (if r.handler then 16 else 0)) ++
  leBytes 1 r.die ++ leBytes 1 r.core ++ leBytes 1 r.slot ++ leBytes 1 (r.split % 4) ++ leBytes 4 r.grid ++ leBytes 4 r.block ++
  leBytes 2 r.wave ++ leBytes 1 r.hearth ++ leBytes 1 (r.tile % 4 + 4 * (r.mxop % 16)) ++ leBytes 2 r.row ++ leBytes 2 r.col ++
  leBytes 8 r.pc.toNat ++ leBytes 8 r.mask.toNat ++ leBytes 8 r.addr.toNat ++ leBytes 16 r.detail.toNat

/-- The 128 bytes of a ring entry (R279). -/
def ringEntry (kind : Nat) (phase : Bool) (lost : Nat) (st : Word) (tag : DWord) (result : List Byte) : List Byte :=
  leBytes 1 kind ++ leBytes 1 (if phase then 1 else 0) ++ leBytes 2 (min lost 0xFFFF) ++ leBytes 4 st.toNat ++
  leBytes 8 tag.toNat ++ (List.range 112).map (fun k => result.getD k 0)

/-- Whether a ring is full, with the consumer count read from host memory when the device's copy says so (R279). -/
def State.ringCons (s : State) (r : Ring) : Nat :=
  if r.prod - r.cons < r.spec.entries then r.cons else ofLe ((List.range 8).map fun k => s.rd (hostBase + r.spec.consumer + k))
/-- Whether a ring has no space after that read. -/
def State.ringFull (s : State) (r : Ring) : Bool := decide (r.spec.entries ≤ r.prod - s.ringCons r)

/-- One entry written into a ring, then its MSI-X message (R279). -/
def State.ringWrite (s : State) (r : Ring) (kind : Nat) (st : Word) (tag : DWord) (result : List Byte) : State × Ring :=
  let phase := r.spec.entries == 0 || (r.prod / r.spec.entries) % 2 == 0
  let at_ := hostBase + r.spec.base + 128 * (r.prod % r.spec.entries)
  let s := s.wrBytes at_ (ringEntry kind phase r.lost st tag result)
  ({ s with msix := s.msix ++ [r.spec.vector] }, { r with prod := r.prod + 1, cons := s.ringCons r, lost := 0 })

/-- An event delivered to a session: into its event ring, dropped and counted when the ring is full (R279), or sent to a peer
(R283). -/
def State.postEvent (s : State) (session : Nat) (tag : DWord) (result : List Byte) : State :=
  match tget s.sessions session with
  | none => s
  | some x =>
    match x.rings, x.peer with
    | some (rr, er), _ =>
      if s.ringFull er then { s with sessions := tset s.sessions session { x with rings := some (rr, { er with lost := er.lost + 1 }) } }
      else
        let (s, er) := s.ringWrite er 2 0 tag result
        { s with sessions := tset s.sessions session { x with rings := some (rr, er) } }
    | none, some (a, p) =>
      { s with peerOut := s.peerOut ++ [{ id := s.nextOp, addr := a, port := p, udp := s.udpPort, header := ringEntry 2 true 0 0 tag [], bytes := result }]
               nextOp := s.nextOp + 1 }
    | none, none => s

/-- A record delivered to the session that owns the grid, or to the management session when no grid is concerned (R267). -/
def State.sendRecord (s : State) (grid : Option Nat) (r : FaultRecord) : State :=
  let session := ((grid.bind s.grid).map Grid.session).getD 0
  let tag := ((grid.bind s.grid).map Grid.tag).getD 0
  ({ s with records := s.records ++ [(session, r)] }).postEvent session tag ((List.range 48).map (fun _ => 0) ++ r.toBytes)

/-! Traps (R255-R261). -/

/-- %trapcause of a record (R258). -/
def trapCauseWord (r : FaultRecord) : Word :=
  BitVec.ofNat 32 (r.type + 256 * r.sub + 65536 * ((lowest r.mask).getD 0) + 4194304 * r.field.code + 16777216 * (r.split % 4))

/-- The record of a trap of a wave, with what it names filled in by the caller. -/
def Wave.mkRecord (w : Wave) (id : WaveId) (split : Nat) (c : Cause) : FaultRecord :=
  { type := c.code, die := w.core.die, core := w.core.core, slot := w.slot, split := split, grid := id.grid, block := id.block
    wave := id.wave, handler := w.inHandler, hearth := 0xFF, mxop := if c = .matrix then 7 else 0 }

/-- A wave enters HALTED, and its HALTED record is sent (R260). -/
def State.haltWave (s : State) (id : WaveId) (w : Wave) (split : Nat) (second : Bool) (r : FaultRecord) : State :=
  (s.setWave id { w with mode := .halted w.inHandler split second }).sendRecord
    (if w.firmware then none else some id.grid) r

/-- The physical address behind a virtual address of a space, by the page tables alone. -/
def State.walk (s : State) (space va : Nat) : Option (Nat × Perms) :=
  (((tget s.spaces space).getD []).find? fun p => decide (p.va ≤ va ∧ va < p.va + p.size)).map
    fun p => (p.pa + (va - p.va), p.perms)

/-! Writes at the device level (R142-R144, R168). -/

/-- Bytes written into a sparse line. -/
def putBytes (l : Cells) (bytes : Cells) : Cells := bytes.foldl (fun l b => sset 0 l b.1 b.2) l
/-- What comes to an L2 line: at its home at once, elsewhere through the queue of its home. -/
def L2Line.meet (atHome : Bool) (u : Update) (l : L2Line) : Option L2Line :=
  if !atHome then some { l with pend := l.pend ++ [u] } else if u.drop then none else some { l with bytes := putBytes l.bytes u.bytes }
/-- R142, R144: what comes to every L2 that holds a line. -/
def State.meetL2 (s : State) (u : Update) : State :=
  { s with l2 := s.l2.filterMap fun x => if x.1.2 = u.line then (x.2.meet (x.1.1 == u.home) u).map fun l => (x.1, l) else some x }
/-- R142-R144: a device-level write of bytes of one line, ordered by its home: memory takes it, and every core that holds an entry
of the line, and every L2 that holds a copy, receives its update. Host lines are held at D0 (R168). A write of a whole line ends its
uncorrectable state (R272). -/
def State.devWrite (s : State) (line : Nat) (bytes : Cells) : State :=
  if bytes.isEmpty then s
  else
    let merge : Cells → Cells := fun l => bytes.foldl (fun l b => cset l b.1 b.2) l
    let n := s.seq + 1
    let u : Update := { seq := n, home := (homeOf (128 * line)).getD 0, line := line, bytes := bytes }
    let s := if isHost (128 * line) then { s with d0held := tset s.d0held line (merge ((tget s.d0held line).getD [])) }
      else bytes.foldl (fun s b => s.wrByte (128 * line + b.1) b.2) s
    { s.meetL2 u with
      seq := n
      badLines := if bytes.length = 128 then s.badLines.filter fun l => l != line else s.badLines
      cores := s.cores.map fun (c : CoreId × Core) =>
        if (tget c.2.store line).isSome then
          (c.1, { c.2 with updq := c.2.updq ++ [u] })
        else c }
/-- A run of bytes written at the device level, line by line. -/
def State.devWriteBytes (s : State) (pa : Nat) (bs : List Byte) : State :=
  let cells := (List.range bs.length).map fun k => (pa + k, bs.getD k 0)
  (distinct (cells.map fun c => c.1 / 128)).foldl (fun s l =>
    s.devWrite l ((cells.filter fun c => c.1 / 128 == l).map fun c => (c.1 % 128, c.2))) s
/-- R142, R268: bytes written into a context image, where its page is mapped: a write at the device level like any other. -/
def State.imageWrite (s : State) (space va : Nat) (bs : List Byte) : State :=
  match s.walk space va with
  | some (pa, _) => s.devWriteBytes pa bs
  | none => s

/-- The virtual address of an offset in a wave's image, whose pages for registers added by VREGS stand apart. -/
def State.imageVa (s : State) (id : WaveId) (w : Wave) (off : Nat) : Nat :=
  match s.grid id.grid with
  | none => w.image + off
  | some g =>
    let own := ((g.ctx.find? fun e => g.rec_.ctxBase + e.1 == w.image).map Prod.snd).getD 0
    if off < own then w.image + off else g.rec_.ctxBase + 4096 * w.gpages.getD ((off - own) / 4096) 0 + (off - own) % 4096
/-- A 32-bit word of an image written. -/
def State.imageW (s : State) (id : WaveId) (w : Wave) (off : Nat) (x : Word) : State :=
  s.imageWrite (s.spaceOf id.grid) (s.imageVa id w off) (leBytes 4 x.toNat)
/-- The offset of a vector register's lane in an image. -/
def vregOff (width r lane : Nat) : Nat := 0x2000 + 128 * width + 4 * (r * width + lane)
/-- R113, R268: a register of a lane written to its place in the wave's image. -/
def State.imageReg (s : State) (id : WaveId) (w : Wave) (r : RReg) (lane : Nat) : State :=
  match r with
  | .v n => s.imageW id w (vregOff w.width n lane) (w.vreg n lane)
  | .s n => s.imageW id w (0x1000 + 4 * n) (w.sreg n)
  | .p _ => s
/-- R108, R170, R327: registers of a wave, by lane, land in its image. -/
def State.landWords (s : State) (id : WaveId) (rs : List (RReg × Nat)) : State :=
  match s.wave id with
  | some w => (rs.foldl (fun s r => s.imageReg id w r.1 r.2) s).setWave id { w with newer := w.newer.filter fun r => !rs.contains r }
  | none => s
/-- A run of bytes from a multiple of 64 on, written into a context image where its pages are mapped. -/
def State.imageRun (s : State) (space va : Nat) (bs : List Byte) : State :=
  (List.range ((bs.length + 63) / 64)).foldl (fun s k => s.imageWrite space (va + 64 * k) ((bs.drop (64 * k)).take 64)) s
/-- R256: a trap is taken. Its results land, its record and registers are written, the split enters HANDLER and the handler
starts with its predicates false, with what spacing its split has to keep from the last instruction that it issued (R81, R82). In handler mode the wave halts under DOUBLE instead (R260). -/
def State.takeTrap (s : State) (id : WaveId) (t : Trap) : State :=
  match s.wave id with
  | none => s
  | some w =>
    let w := w.landAll
    if w.inHandler then
      let r := { t.record with type := Cause.double.code, sub := 0, mask := 0, detail :=
                   BitVec.ofNat 128 (t.cause.code + 256 * t.record.sub + 65536 * (w.trapcause.truncate 8).toNat) }
      s.haltWave id w t.split t.second r
    else
      let handlerPc := ((s.grid id.grid).map fun g => g.rec_.handler).getD 0
      let sp := w.split t.split
      let w := { w.modSplit t.split (fun x => { x with st := .handler }) with
        mode := .handler
        hand := some { split := t.split, second := t.second, prev := sp.st, preds := 0
                       path := { pc := handlerPc, mask := 1, readyAt := max (sp.path t.second).readyAt (s.clkOf id + 1)
                                 yieldAt := (sp.path t.second).yieldAt }, win := t.win
                       entered := some (s.clkOf id) }
        record := t.record
        trapcause := trapCauseWord t.record
        trappc := t.trappc
        trapaddr := t.record.addr }
      (s.setWave id w).imageWrite (s.spaceOf id.grid) (w.image + 0x40) t.record.toBytes

/-- The candidate that is next to issue under R36: the lowest RUNNING split with a path that is not parked. -/
def Wave.nextPath (w : Wave) : Option (Nat × Bool) :=
  (List.range 4).findSome? fun k =>
    let x := w.split k
    if x.st = .running then
      if x.p1.wait.isNone && !x.p1.atJoin then some (k, false)
      else match x.p2 with
        | some p => if p.wait.isNone && !p.atJoin then some (k, true) else none
        | none => none
    else none

/-- R259, after a handler has ended: the pending trap of the wave is taken; other due traps are taken before their split's
next issue. -/
def State.takePending (s : State) (id : WaveId) : State :=
  match s.wave id with
  | some w =>
    match w.pending with
    | some t => (s.setWave id { w with pending := none }).takeTrap id t
    | none => s
  | none => s

/-- R82: the later of two yields. -/
def laterYield : Option Nat → Option Nat → Option Nat
  | some a, some b => some (max a b)
  | a, none => a
  | none, b => b
/-- R81, R260, R374: the handler ends. The trapped split takes its earlier state and resumes at `pc`, spaced from the handler's last
instruction; a split that was FAULTED becomes RUNNING. The handler's results land first, and its predicates are discarded. -/
def State.endHandler (s : State) (id : WaveId) (pc : DWord) : State :=
  match s.wave id with
  | none => s
  | some w =>
    let w := w.landAll
    match w.hand with
    | none => s
    | some h =>
      let st := if h.prev = .faulted then .running else h.prev
      let m := ((w.split h.split).path h.second).mask
      let w := { w.modSplit h.split (fun x =>
                   { x.modPath h.second (fun p =>
                      { p with pc := pc, readyAt := max p.readyAt (max h.path.readyAt (s.clkOf id + 1)), yieldAt := laterYield p.yieldAt h.path.yieldAt
                               wait := match p.wait with | some (.openFault _ _) => none | x => x }) with st := st })
                 with mode := .running, hand := none
                      resume := w.resume.filter fun r => !(r.split == h.split && r.lanes == m && r.pc != pc) }
      (s.setWave id w).takePending id

/-- R72: whether a PC is well formed. -/
def pcOk (pc : DWord) : Bool := pc.extractLsb' 56 8 == 0 && pc.extractLsb' 4 3 == 0 && decide ((pc.extractLsb' 0 4).toNat ≤ 9)
/-- R73: the PC of the next instruction. Past slot 9 of the last line of the 2^56-byte space the rule says nothing: the model checks nothing
there, and the fetch of the line beyond traps XLATE (DESIGN CHOICE, log entry 53). -/
def nextPc (pc : PC) : PC :=
  if (pc.extractLsb' 0 4).toNat < 9 then pc + 1 else (pc - 9) + 128
/-- R78: the target of a displacement, from the line of the branch. -/
def dispPc (pc : PC) (d : BitVec 30) : PC :=
  ((pc >>> 7) <<< 7) + ((d.extractLsb' 4 26).signExtend 64 <<< 7) + (d.extractLsb' 0 4).zeroExtend 64
/-- R298: the PC of a JOIN operand. -/
def joinPc (pc : PC) (jl : BitVec 10) (js : BitVec 4) : PC :=
  ((pc >>> 7) <<< 7) + (jl.signExtend 64 <<< 7) + js.zeroExtend 64

end Sys2Proof.Machine
end

