-- ==== Sys2Proof/Machine/Operands.lean ====
section
/-! DEFINITION. What an instruction reads and writes (R87, R90 step 9), the executing path's view of the registers (R84-R89), and
the operand forms (R77, R185, R309). -/

namespace Sys2Proof.Machine

/-- One operand's registers: its field, the first register, how many, and whether they are read and written. -/
structure Use where
  fld : Fld
  reg : RReg
  n   : Nat
  rd  : Bool
  wr  : Bool
  /-- Read in every lane, whatever the guard (READLANE). -/
  any : Bool := false
  deriving DecidableEq, Repr

/-- A vector or scalar source of `n` registers; an immediate uses none. -/
def srcUse (f : Fld) (o : Opnd) (n : Nat) : List Use :=
  match o with
  | .v r => [⟨f, .v r.toNat, n, true, false, false⟩]
  | .s r => [⟨f, .s r.toNat, n, true, false, false⟩]
  | .p r => [⟨f, .p r.toNat, 1, true, false, false⟩]
  | .i _ => []
/-- A destination of `n` registers. -/
def dstUse (o : Opnd) (n : Nat) : List Use :=
  match o with
  | .v r => [⟨.d, .v r.toNat, n, false, true, false⟩]
  | .s r => [⟨.d, .s r.toNat, n, false, true, false⟩]
  | .p r => [⟨.d, .p r.toNat, 1, false, true, false⟩]
  | .i _ => []
/-- A vector destination. -/
def dV (d : BitVec 8) (n : Nat) : List Use := dstUse (.v d) n
/-- A scalar destination. -/
def dS (d : BitVec 7) (n : Nat) : List Use := dstUse (.s d) n
/-- A predicate destination that a modifier group names, 7 for none. -/
def dP (p : BitVec 3) : List Use := if p = 7 then [] else [⟨.none, .p p.toNat, 1, false, true, false⟩]
/-- A predicate read. -/
def rP (f : Fld) (p : BitVec 3) : List Use := [⟨f, .p p.toNat, 1, true, false, false⟩]
/-- The offset register of ATOM and RED (R90: reported as field B). -/
def offUse : AtomOff → List Use
  | .const _ => []
  | .reg r => [⟨.b, .v r.toNat, 1, true, false, false⟩]

/-- The registers that an instruction names, in the order D, A, B, C; the guard stands apart. A register that is named and neither read
nor written counts for its allocation alone (R213, R241). -/
def uses : Instr → List Use
  | .brx _ a | .ret _ a => srcUse .a (.s a) 2
  | .call _ d t => dS d 2 ++ srcUse .b t 2
  | .sleep _ n => srcUse .b n 1
  | .elect _ d idx => dstUse (.p d) 1 ++ (match idx with | some a => [⟨.a, .s a.toNat, 1, false, true, false⟩] | none => [])
  | .vote _ _ d a => dstUse d 1 ++ rP .a a
  | .iadd _ d a b t _ | .isub _ d a b t _ | .imul _ d a b t _ | .imulhi _ d a b t | .imin _ d a b t | .imax _ d a b t
    => dV d t.regs ++ srcUse .a a t.regs ++ srcUse .b b t.regs
  | .sel _ d a b t p _ => dV d t.regs ++ srcUse .a a t.regs ++ srcUse .b b t.regs ++ rP .none p
  | .iabs _ d a t _ | .brev _ d a t | .mov _ d a t => dV d t.regs ++ srcUse .a a t.regs
  | .imad _ d a b c t _ | .isad _ d a b c t _ | .idot4 _ d a b c t _ _ | .lop3 _ d a b c t _ =>
    dV d t.regs ++ srcUse .a a t.regs ++ srcUse .b b t.regs ++ srcUse .b c t.regs
  | .shl _ d a b t | .shr _ d a b t | .shra _ d a b t | .rot _ d a b t _ | .bfe _ d a b t | .lea _ d a b t _ _ =>
    dV d t.regs ++ srcUse .a a t.regs ++ srcUse .b b 1
  | .bfi _ d a b t => [⟨.d, .v d.toNat, t.regs, true, true, false⟩] ++ srcUse .a a t.regs ++ srcUse .b b 1
  | .shf _ d a b c _ => dV d 1 ++ srcUse .a a 1 ++ srcUse .b b 1 ++ srcUse .b c 1
  | .popc _ d a t | .clz _ d a t | .fclass _ d a t => dV d 1 ++ srcUse .a a t.regs
  | .prmt _ d a b _ => dV d 1 ++ srcUse .a a 1 ++ srcUse .b b 1
  | .movi _ d _ => dV d 1
  | .shfl _ d a b t _ pd => dV d t.regs ++ srcUse .a (.v a) t.regs ++ srcUse .b b 1 ++ dP pd
  | .readlane _ d a b t => dS d t.regs ++ [⟨.a, .v a.toNat, t.regs, true, false, true⟩] ++ srcUse .b b 1
  | .wred _ d a t _ _ => dstUse d t.regs ++ srcUse .a (.v a) t.regs
  | .wscan _ d a t _ _ _ => dV d t.regs ++ srcUse .a (.v a) t.regs
  | .setp _ d a b t _ => dstUse (.p d) 1 ++ srcUse .a a t.regs ++ srcUse .b b t.regs
  | .plop _ d a b c _ => dstUse (.p d) 1 ++ rP .a a ++ rP .b b ++ rP .b c
  | .fadd _ d a b _ _ _ | .fsub _ d a b _ _ _ | .fmul _ d a b _ _ _ | .fmin _ d a b | .fmax _ d a b | .fscale _ d a b _
  | .hadd2 _ d a b _ _ _ _ _ | .hmul2 _ d a b _ _ _ _ => dV d 1 ++ srcUse .a a 1 ++ srcUse .b b 1
  | .ffma _ d a b c _ _ _ _ | .fdot2 _ d a b c _ _ _ _ _ | .hfma2 _ d a b c _ _ _ _ _ =>
    dV d 1 ++ srcUse .a a 1 ++ srcUse .b b 1 ++ srcUse .b c 1
  | .frcp _ d a _ | .fsqrt _ d a _ | .frnd _ d a _ | .frsq _ d a | .fexp2 _ d a | .flog2 _ d a | .fsin _ d a | .fcos _ d a =>
    dV d 1 ++ srcUse .a a 1
  | .dadd _ d a b _ _ _ | .dmul _ d a b _ _ _ => dV d 2 ++ srcUse .a a 2 ++ srcUse .b b 2
  | .dfma _ d a b c _ _ _ _ => dV d 2 ++ srcUse .a a 2 ++ srcUse .b b 2 ++ srcUse .b c 2
  | .cvt _ d a dt st _ _ => dV d dt.regs ++ srcUse .a a st.regs
  | .qpack _ d a b st => dV d 1 ++ srcUse .a (.v a) (if st = .f32 then 8 else 4) ++ srcUse .b b 1
  | .qunpack _ d a b dt => dV d (if dt = .f32 then 8 else 4) ++ srcUse .a a 1 ++ srcUse .b b 1
  | .open _ _ a st _ _ pd _ => srcUse .a a 2 ++ [⟨.b, .s st.toNat, 1, false, true, false⟩] ++ dP pd
  | .reopen _ _ st _ | .reopenTrap _ st _ => [⟨.a, .s st.toNat, 1, false, true, false⟩]
  | .wquery _ d _ x => dV d (if x then 2 else 1)
  | .ldw _ d _ off t sz acc => dV d (memRegs t sz) ++ srcUse .b off 1 ++ (match acc with | .chk p => dP p | _ => [])
  | .ldws _ d _ off t sz _ => dS d (memRegs t sz) ++ srcUse .b off 1
  | .stw _ d _ off t sz _ => [⟨.d, .v d.toNat, memRegs t sz, true, false, false⟩] ++ srcUse .b off 1
  | .stws _ d _ off t sz _ => [⟨.d, .s d.toNat, memRegs t sz, true, false, false⟩] ++ srcUse .b off 1
  | .ldl _ d a _ t sz => dV d (memRegs t sz) ++ srcUse .a a 1
  | .stl _ d a _ t sz => [⟨.d, .v d.toNat, memRegs t sz, true, false, false⟩] ++ srcUse .a a 1
  | .cstw _ d _ off t _ => [⟨.d, .v d.toNat, t.regs, true, false, false⟩] ++ srcUse .b off 1
  | .commit _ st _ x => dS st 1 ++ (match x with | some q => [⟨.a, .s q.toNat, 2, false, true, false⟩] | none => [])
  | .abort _ st _ | .acquire _ st _ => dS st 1
  | .atom _ d _ off b t op _ pd =>
    dV d t.regs ++ srcUse .b (.v b) (if op = .cas then 2 * t.regs else t.regs) ++ offUse off ++ dP pd
  | .red _ _ off b t _ _ => srcUse .b (.v b) t.regs ++ offUse off
  | .arrive _ d _ n | .barsync _ d _ n _ => dS d 2 ++ srcUse .b n 1
  | .waitb _ d _ g _ => dS d 1 ++ srcUse .b g 1
  | .barq _ d _ _ | .barqReset _ d _ => dS d 2
  | .waitn _ d n _ _ => dS d 1 ++ srcUse .a n 1
  | .waitk _ d _ _ => dS d 1
  | .cpy _ d x _ _ _ => dS d 1 ++ srcUse .a (.s x) 5
  | .bina _ d x q t _ => dS d 1 ++ srcUse .a (.v x) (2 + t.regs) ++
    [⟨.a, .v (x.toNat + 3), 1, false, false, false⟩] ++ srcUse .b (.s q) 2
  | .binr _ d q g _ => dS d 1 ++ srcUse .a (.s q) 2 ++ srcUse .b g 1
  | .isect _ d a b c => dV d 1 ++ srcUse .a (.v a) 1 ++ srcUse .b (.v b) 1 ++ [⟨.b, .s c.toNat, 1, false, true, false⟩]
  | .mma _ _ x _ idx _ => srcUse .a (.v x) 2 ++ [⟨.a, .v (x.toNat + 2), 1, idx, false, false⟩] ++ srcUse .a (.v (x + 3)) 1
  | .mxld _ _ a st _ _ => srcUse .a a 2 ++ srcUse .b (.s st) 1
  | .mxst _ _ a st _ _ _ _ => srcUse .a a 2 ++ srcUse .b (.s st) 1
  | .launch _ d a _ => dS d 1 ++ srcUse .a (.s a) 2
  | .vregs _ d n _ => dS d 1 ++ srcUse .a n 1
  | .sadd _ d a b t | .ssub _ d a b t | .smul _ d a b t | .smin _ d a b t | .smax _ d a b t =>
    dS d t.regs ++ srcUse .a (.s a) t.regs ++ srcUse .b b t.regs
  | .slop3 _ d a b c t _ =>
    dS d t.regs ++ srcUse .a (.s a) t.regs ++ srcUse .b (.s b) t.regs ++ srcUse .b (.s c) t.regs
  | .sshl _ d a b t | .sshr _ d a b t => dS d t.regs ++ srcUse .a (.s a) t.regs ++ srcUse .b b 1
  | .slea _ d a b t _ _ => dS d t.regs ++ srcUse .a (.s a) t.regs ++ srcUse .b (.s b) 1
  | .smov _ d a t => dS d t.regs ++ srcUse .a a t.regs
  | .scvt _ d a dt st _ => dS d dt.regs ++ srcUse .a (.s a) st.regs
  | .ssetp _ d a b t _ => dstUse (.p d) 1 ++ srcUse .a (.s a) t.regs ++ srcUse .b b t.regs
  | .ssel _ d a b t p _ => dS d t.regs ++ srcUse .a (.s a) t.regs ++ srcUse .b b t.regs ++ rP .none p
  | .mfs _ d n => dstUse d (sregRegs n.toNat)
  | .mts _ a n => srcUse .a a (sregRegs n.toNat)
  | .mtsTrappc _ a => srcUse .a a 2
  | .mtsExcctl _ a | .mtsExccount _ a | .mtsExcwin _ a | .mtsFaultmask _ a => srcUse .a a 1
  | .xcinv _ d x _ => dS d 1 ++ srcUse .a (.s x) 4
  | .msgs _ d x b => dS d 1 ++ srcUse .a (.s x) 16 ++ srcUse .b b 1
  | .msgr _ d x => dS d 2 ++ [⟨.a, .s x.toNat, 16, false, true, false⟩]
  | _ => []

/-- The guard and hints of an instruction. -/
def hdrOf : Instr → Hdr
  | .nop h | .bra h .. | .braDual h .. | .braSplit h .. | .brx h .. | .call h .. | .ret h .. | .join h | .exit h | .yield h
  | .sleep h .. | .elect h .. | .vote h .. | .iadd h .. | .isub h .. | .imul h .. | .imulhi h .. | .imad h .. | .imin h ..
  | .imax h .. | .iabs h .. | .isad h .. | .idot4 h .. | .lop3 h .. | .shl h .. | .shr h .. | .shra h .. | .rot h .. | .shf h ..
  | .bfe h .. | .bfi h .. | .popc h .. | .clz h .. | .brev h .. | .prmt h .. | .lea h .. | .mov h .. | .movi h .. | .shfl h ..
  | .readlane h .. | .wred h .. | .wscan h .. | .setp h .. | .plop h .. | .sel h .. | .fadd h .. | .fsub h .. | .fmul h ..
  | .ffma h .. | .fmin h .. | .fmax h .. | .frcp h .. | .frsq h .. | .fsqrt h .. | .fexp2 h .. | .flog2 h .. | .fsin h ..
  | .fcos h .. | .fscale h .. | .frnd h .. | .fclass h .. | .fdot2 h .. | .dadd h .. | .dmul h .. | .dfma h .. | .hadd2 h ..
  | .hmul2 h .. | .hfma2 h .. | .cvt h .. | .qpack h .. | .qunpack h .. | .open h .. | .close h .. | .reopen h ..
  | .reopenTrap h .. | .wquery h .. | .ldw h .. | .ldws h .. | .stw h .. | .stws h .. | .ldl h .. | .stl h .. | .cstw h ..
  | .commit h .. | .abort h .. | .acquire h .. | .atom h .. | .red h .. | .ifence h | .arrive h .. | .waitb h .. | .barsync h ..
  | .barq h .. | .barqReset h .. | .waitn h .. | .waitk h .. | .cpy h .. | .bina h .. | .binr h .. | .isect h .. | .mma h ..
  | .mxld h .. | .mxst h .. | .mxz h .. | .launch h .. | .vregs h .. | .sadd h .. | .ssub h .. | .smul h .. | .smin h ..
  | .smax h .. | .slop3 h .. | .sshl h .. | .sshr h .. | .slea h .. | .smov h .. | .scvt h .. | .ssetp h .. | .ssel h ..
  | .trap h .. | .tret h | .mfs h .. | .mts h .. | .mtsExcctl h .. | .mtsExccount h .. | .mtsExcwin h .. | .mtsFaultmask h ..
  | .mtsTrappc h .. | .xcinv h .. | .msgs h .. | .msgr h .. | .halt h | .unassignedOpcode h _ => h
  | _ => ⟨⟨false, 7⟩, 0, false, 0⟩

/-- R257: the handler subset, with the forms it excludes (R335). -/
def inSubset : Instr → Bool
  | .nop _ | .bra .. | .braDual .. | .braSplit .. | .brx .. | .call .. | .ret .. | .yield _ | .sleep .. | .close .. | .reopen ..
  | .reopenTrap .. | .commit .. | .abort .. | .acquire .. | .ifence _ | .waitb .. | .waitn .. | .waitk .. | .sadd .. | .ssub ..
  | .smul .. | .smin .. | .smax .. | .slop3 .. | .sshl .. | .sshr .. | .slea .. | .smov .. | .scvt .. | .ssetp .. | .ssel ..
  | .trap .. | .tret _ | .mts .. | .mtsExcctl .. | .mtsExccount .. | .mtsExcwin .. | .mtsFaultmask .. | .mtsTrappc ..
  | .xcinv .. | .msgs .. | .msgr .. | .halt _ => true
  | .mfs _ d _ => match d with | .v _ => false | _ => true
  | _ => false

/-- R91, R140, R334: whether a wave that is not privileged raises PRIV for this instruction. -/
def needsPriv : Instr → Bool
  | .tret _ | .mts .. | .mtsExcctl .. | .mtsExccount .. | .mtsExcwin .. | .mtsFaultmask .. | .mtsTrappc .. | .xcinv .. | .msgs ..
  | .msgr .. | .halt _ | .reopenTrap .. => true
  | .mfs _ _ n => 0x10 ≤ n.toNat && n.toNat ≤ 0x12
  | _ => false

/-- R92: the opcode class of an instruction, as R27 compares them. -/
def opClass (i : Instr) : Nat :=
  let op := i.fields.op.toNat
  ([0x040, 0x0C0, 0x140, 0x180, 0x200, 0x240, 0x280, 0x2C0, 0x300].filter fun b => decide (b ≤ op)).length
/-- R27: the 8-lane slices of a slot that lanes of a wave of width `w` in position `pos` meet. -/
def slicesOf (w pos : Nat) (m : Lanes) : BitVec 8 :=
  (lanesOf m).foldl (fun s l => s ||| BitVec.twoPow 8 ((pos * w + l) / 8)) 0

/-- The executing path and what it sees: its wave with the registers as this issue reads them, its active lanes and the lanes
that its guard selects. In handler mode the one lane is lane 0 (R257). -/
structure Ctx where
  id     : WaveId
  w      : Wave
  split  : Nat
  second : Bool
  hand   : Bool
  pc     : PC
  mask   : Lanes
  sel    : Lanes
  grid   : Grid
  now    : Nat
  fresh  : Nat
  /-- The opcode class of the instruction (R27). -/
  cls    : Nat := 0
  deriving DecidableEq, Repr

/-- Whether a path waits on the guard's lanes in no way: it selects a lane. -/
def Ctx.any (c : Ctx) : Bool := c.sel != 0
/-- The lanes that the guard selects, ascending. -/
def Ctx.lanes (c : Ctx) : List Nat := lanesOf c.sel

/-- The lanes in which a predicate is true for this path: the handler's own in handler mode (R257). -/
def Wave.predFor (w : Wave) (hand : Bool) (p : Nat) : Lanes :=
  if hand then (if p = 7 then 1 else if ((w.hand.map Handler.preds).getD 0).getLsbD p then 1 else 0) else w.predMask p

/-- R79: the active lanes that a guard selects. -/
def guardSel (w : Wave) (hand : Bool) (g : Guard) (mask : Lanes) : Lanes :=
  let m := w.predFor hand g.p.toNat
  mask &&& (if g.neg then ~~~m else m)

/-- R86: the registers as an issuing path sees them: each outstanding result, in each lane, either landed or not, also in the lanes that the path
does not have, which READLANE reads (R349). Each register of a pair, and each lane, is drawn on its own, so that a read of a
pair may be torn: R86 does not say whether it can be (DESIGN CHOICE, log entry 2). -/
def Wave.view (w : Wave) (now fresh : Nat) : Wave :=
  let go : Wave × Nat → FixedWrite → Wave × Nat := fun (w, k) f =>
    (w.land1 (if f.due ≤ now then f else
      { f with vals := f.vals.filter fun v => !Config.staleRead fresh k v.1 }), k + 1)
  if w.lats.isEmpty then w else (w.lats.foldl go (w, 0)).1

/-- R77, R185: an operand's value in a lane: `n` registers of a vector or scalar, or an immediate as `imm` extends it. -/
def Ctx.rd (c : Ctx) (o : Opnd) (n lane : Nat) (imm : BitVec 30 → Nat) : Nat :=
  match o with
  | .v r => (c.w.vreg r.toNat lane).toNat + (if n = 2 then 4294967296 * (c.w.vreg (r.toNat + 1) lane).toNat else 0)
  | .s r => (c.w.sreg r.toNat).toNat + (if n = 2 then 4294967296 * (c.w.sreg (r.toNat + 1)).toNat else 0)
  | .p q => if (c.w.predFor c.hand q.toNat).getLsbD lane then 1 else 0
  | .i x => imm x

/-- An immediate sign-extended to 64 bits. -/
def immS (x : BitVec 30) : Nat := (x.signExtend 64).toNat
/-- An immediate zero-extended. -/
def immZ (x : BitVec 30) : Nat := x.toNat
/-- R321, R355: an integer immediate, sign-extended for .I types and zero-extended for .N types. -/
def immInt (t : Ty) (x : BitVec 30) : Nat := if t.signed then (x.signExtend 64).toNat % 2 ^ t.bits else x.toNat % 2 ^ t.bits
/-- R309: a float immediate gives the operand's high bits. -/
def immFlt (t : Ty) (x : BitVec 30) : Nat := if t.wide then x.toNat * 2 ^ 34 else x.toNat * 4

/-- A scalar register read. -/
def Ctx.s (c : Ctx) (r : BitVec 7) : Word := c.w.sreg r.toNat
/-- A scalar pair read (R4). -/
def Ctx.sPair (c : Ctx) (r : BitVec 7) : DWord := c.w.sreg (r.toNat + 1) ++ c.w.sreg r.toNat

/-- The fixed-latency writes of this issue, appended to those outstanding (R84). -/
def Ctx.fix (c : Ctx) (s : State) (lat : Nat) (ws : List (RReg × List (Nat × Word))) : State :=
  s.modWave c.id fun w => { w with lats := w.lats ++ (ws.filter fun x => !x.2.isEmpty).map fun x =>
    { reg := x.1, vals := x.2, due := c.now + lat, pc := c.pc, split := c.split, second := c.second, hand := c.hand } }

/-- The write of an `n`-register value, by lane, to vector `d`. -/
def vecWrites (d n : Nat) (vals : List (Nat × Nat)) : List (RReg × List (Nat × Word)) :=
  (List.range n).map fun k => (.v (d + k), vals.map fun v => (v.1, BitVec.ofNat 32 (v.2 / 2 ^ (32 * k))))
/-- The write of an `n`-register value to scalar `d`. -/
def scaWrites (d n : Nat) (x : Nat) : List (RReg × List (Nat × Word)) :=
  (List.range n).map fun k => (.s (d + k), [(0, BitVec.ofNat 32 (x / 2 ^ (32 * k)))])
/-- The write of a predicate, by lane; in handler mode the handler's own. -/
def predWrites (p : Nat) (vals : List (Nat × Bool)) : List (RReg × List (Nat × Word)) :=
  if p = 7 then [] else [(.p p, vals.map fun v => (v.1, if v.2 then 1 else 0))]
/-- The write of a value to a vector destination by lane, or once to a scalar destination. -/
def opWrites (d : Opnd) (n : Nat) (lanes : List Nat) (x : Nat) : List (RReg × List (Nat × Word)) :=
  match d with
  | .v r => vecWrites r.toNat n (lanes.map fun i => (i, x))
  | .s r => scaWrites r.toNat n x
  | _ => []

/-- A scalar source's or immediate's value in an instruction that acts once. -/
def Ctx.rd1 (c : Ctx) (o : Opnd) (n : Nat) (imm : BitVec 30 → Nat) : Nat := c.rd o n ((lowest c.sel).getD 0) imm

/-- The effect of an instruction's meaning, before the path moves on. -/
inductive Eff where
  /-- The effect is made, and the path goes on at the next PC. -/
  | ok (s : State)
  /-- The effect is made, and the path goes on at `pc`. -/
  | goto (pc : PC) (s : State)
  /-- An exact trap: no effect (R255). -/
  | trap (c : Cause) (sub : Nat) (fld : Fld) (mask : Lanes) (addr : DWord)
  /-- An exact trap whose record has a detail (R254). -/
  | trapDetail (c : Cause) (fld : Fld) (mask : Lanes) (addr : DWord) (detail : BitVec 128)
  /-- A trap taken after the effect, at the PC given (R251, R373). -/
  | trapAfter (s : State) (c : Cause) (fld : Fld) (mask : Lanes) (addr : DWord) (pc : PC) (detail : BitVec 128)
  /-- The meaning has set the path itself. -/
  | raw (s : State)

end Sys2Proof.Machine
end

