-- ==== Sys2Proof/Machine/Flags.lean ====
section
/-! DEFINITION. Exception counting: what an instruction's events do to a core's classes, and MTS writes at the end of a clock
(11 R201-R204; 21 R335, R336). -/

namespace Sys2Proof.Machine

/-- The six classes of an event set, ascending. -/
def classesOf (e : Events) : List Nat := (List.range 6).filter fun k => e.getLsbD k

/-- R201: the events of an instruction, lane by lane, noted for the end of the clock. -/
def Ctx.note (c : Ctx) (s : State) (evs : List (Nat × Events)) : State :=
  let l := evs.flatMap fun e => (classesOf e.2).map fun k =>
    ({ key := c.w.slot * 64 + c.w.pos * c.w.width + e.1, cls := k, wave := c.id, split := c.split, second := c.second
       hand := c.hand, pc := c.pc, lane := e.1, engine := false, slot := c.w.slot, heir := c.split } : ExcEvent)
  if l.isEmpty then s else s.modCore c.w.core fun k => { k with evq := k.evq ++ l }

/-- R200: the events of an instruction that counts each class once. The lane that the record of a firing names is then the lowest selected one
(DESIGN CHOICE, log entry 81). -/
def Ctx.noteOnce (c : Ctx) (s : State) (e : Events) : State := c.note s [((lowest c.sel).getD 0, e)]

/-- A vector instruction of fixed latency `lat`: `f` gives each selected lane's value, of `n` registers, and its events. -/
def laneOp (c : Ctx) (s : State) (d : BitVec 8) (n lat : Nat) (f : Nat → Nat × Events) : Eff :=
  let rs := c.lanes.map fun l => (l, f l)
  .ok (c.note (c.fix s lat (vecWrites d.toNat n (rs.map fun r => (r.1, r.2.1)))) (rs.map fun r => (r.1, r.2.2)))
/-- A vector instruction of fixed latency that counts no event. -/
def lanePure (c : Ctx) (s : State) (d : BitVec 8) (n lat : Nat) (f : Nat → Nat) : Eff :=
  .ok (c.fix s lat (vecWrites d.toNat n (c.lanes.map fun l => (l, f l))))
/-- A predicate-writing vector instruction of fixed latency. -/
def lanePred (c : Ctx) (s : State) (d : BitVec 3) (lat : Nat) (f : Nat → Bool × Events) : Eff :=
  let rs := c.lanes.map fun l => (l, f l)
  .ok (c.note (c.fix s lat (predWrites d.toNat (rs.map fun r => (r.1, r.2.1)))) (rs.map fun r => (r.1, r.2.2)))
/-- R288, R354: an instruction that acts once and writes a scalar of `n` registers with fixed latency. -/
def scalarOp (c : Ctx) (s : State) (d : BitVec 7) (n lat : Nat) (x : Nat × Events) : Eff :=
  if c.any then .ok (c.noteOnce (c.fix s lat (scaWrites d.toNat n x.1)) x.2) else .ok s

/-- R203: the place in the counting order of an event that an operation meets in a lane: an ATOM's or a COMMIT's by the slot and the lane of
its issue, an engine's behind them all. -/
def Op.evKey (o : Op) (lane : Nat) : Nat :=
  match o.kind with
  | .atom .. | .commit .. => o.slot * 64 + o.first + lane
  | _ => 1000000
/-- R201, R203: the events of an operation at its completion, by lane. -/
def Op.excEvents (o : Op) (atNext : Bool) (evs : List (Nat × Events)) : List ExcEvent :=
  evs.flatMap fun e => (classesOf e.2).map fun k =>
    { key := o.evKey e.1, cls := k, wave := o.wave, split := o.split, second := o.second, hand := false, pc := o.pc, lane := e.1, engine := true
      slot := o.slot, atNext := atNext, heir := o.heir }
/-- R199, R204: the events of a matrix operation, whose trap the wave takes at its next issue. The record's firing lane is lane 0, as for a
COMMIT and a BINR: their events are of no lane, and the rule says none (DESIGN CHOICE, log entry 81). -/
def State.noteEngine (s : State) (o : Op) (e : Events) : State :=
  let l := o.excEvents true [(0, e)]
  if l.isEmpty then s else s.modCore o.core fun k => { k with evq := k.evq ++ l }
/-- R201, R204: the events of an ATOM, a COMMIT or a BINR, whose trap the split that issued it takes. -/
def State.noteLate (s : State) (o : Op) (evs : List (Nat × Events)) : State :=
  let l := o.excEvents false evs
  if l.isEmpty then s else s.modCore o.core fun k => { k with evq := k.evq ++ l }

/-- A list with an event inserted behind those of no greater place. -/
def evInsert (e : ExcEvent) : List ExcEvent → List ExcEvent
  | [] => [e]
  | x :: t => if e.key < x.key then e :: x :: t else x :: evInsert e t
/-- R203: the events of a clock in counting order. -/
def evSort (l : List ExcEvent) : List ExcEvent := l.foldl (fun acc e => evInsert e acc) []

/-- The detail of EXC_THRESHOLD and EXC_EVENT (R266). -/
def excDetail (cls lane count : Nat) : BitVec 128 := BitVec.ofNat 128 (cls + 256 * lane + 65536 * count)

/-- R203, R204: one event counted, and what its class's firing does. A split that has ended takes no trap, and a wave that is
HALTED in its handler is not in handler mode: the trap of an operation of it becomes due (DEDUCED, log entry 89). -/
def State.countOne (cid : CoreId) (s : State) (e : ExcEvent) : State :=
  let k := s.core cid
  let cl := k.exc.getD e.cls {}
  if !cl.ena then s
  else
    let n := min (cl.count + 1) 0xFFFF
    let fires := cl.armed && cl.count == cl.threshold && n == cl.threshold + 1
    let s := s.modCore cid fun k =>
      { k with exc := lmod k.exc e.cls fun c => { c with count := n, armed := c.armed && !fires }
               fired := if fires then k.fired ||| BitVec.twoPow 6 e.cls else k.fired }
    if !fires then s
    else
      let r : FaultRecord :=
        { type := Cause.excThreshold.code, die := cid.die, core := cid.core, slot := e.slot, split := e.split, grid := e.wave.grid
          block := e.wave.block, wave := e.wave.wave, handler := e.hand, retired := (s.wave e.wave).isNone, hearth := 0xFF, pc := e.pc
          mask := BitVec.twoPow 64 e.lane, detail := excDetail e.cls e.lane n }
      let s := match s.wave e.wave with
        | some w =>
          let live := e.atNext || (w.split e.heir).st != .free
          if cl.act.getLsbD 0 && !e.hand && !(e.engine && w.inHandler) && w.lanes != 0 && live then
            s.setWave e.wave { w with due := w.due ++ [{ cause := .excThreshold, record := { r with sub := e.cls }, trappc := 0
                                                         split := e.heir, second := e.second, atNext := e.atNext }] }
          else s
        | none => s
      if cl.act.getLsbD 1 then
        s.sendRecord (if ((s.wave e.wave).map Wave.firmware).getD false then none else some e.wave.grid) { r with type := 0x23, sub := 0 }
      else s

/-- R202, R336: one write of MTS to a core's counting state. -/
def Core.applyExc (now : Nat) (k : Core) (x : ExcWrite) : Core :=
  match x.reg with
  | 0x18 =>
    { k with exc := (List.range 6).map fun c =>
        { k.exc.getD c {} with act := x.val.extractLsb' (4 * c + 1) 2, ena := x.val.getLsbD (4 * c) } }
  | 0x19 =>
    { k with exc := lmod k.exc x.sel fun c =>
        { c with threshold := (x.val.extractLsb' 16 16).toNat, count := (x.val.extractLsb' 0 16).toNat, armed := true } }
  | 0x1A =>
    { k with exc := lmod k.exc x.sel fun c =>
        { c with window := x.val.toNat, started := now + 1, count := 0, armed := true } }
  | _ => { k with fired := k.fired &&& ~~~(x.val.extractLsb' 0 6) }

/-- R336: the writes of a clock, in ascending partition order; those of one partition in issue order. -/
def Core.applyWrites (now : Nat) (k : Core) : Core :=
  { ((List.range 6).flatMap fun p => k.excWrites.filter fun x => x.part == p).foldl (Core.applyExc now) k with excWrites := [] }

/-- R203, R336: the end of a clock on a core: its events are counted, then MTS writes apply. -/
def State.endClock (s : State) (cid : CoreId) : State :=
  let k := s.core cid
  let evs := evSort k.evq
  let s := if evs.isEmpty then s else evs.foldl (State.countOne cid) (s.modCore cid fun k => { k with evq := [] })
  if k.excWrites.isEmpty then s else s.modCore cid (Core.applyWrites (s.clk cid.die))

/-- SEL as R202 reads it: 6 and 7 are treated as 0. -/
def selClass (x : BitVec 3) : Nat := if x.toNat ≤ 5 then x.toNat else 0
/-- %excctl as R202 lays it out. A SEL written as 6 or 7, which selects class 0, reads back as it was written (DESIGN CHOICE, log entry 83). -/
def excctlWord (k : Core) (sel : BitVec 3) : Word :=
  BitVec.ofNat 32 (16777216 * sel.toNat + ((List.range 6).map fun c =>
    let x := k.exc.getD c {}
    2 ^ (4 * c + 1) * x.act.toNat + (if x.ena then 2 ^ (4 * c) else 0)).sum)
/-- %exccount of a class. -/
def exccountWord (x : ExcClass) : Word := BitVec.ofNat 32 (65536 * x.threshold + x.count)

/-- R203: whether a class's window ends at or before this clock. -/
def ExcClass.ended (x : ExcClass) (now : Nat) : Bool := x.window != 0 && decide (x.started + x.window ≤ now)
/-- R203: the next window starts: COUNT becomes 0 and the class is re-armed. -/
def ExcClass.next (x : ExcClass) : ExcClass := { x with count := 0, armed := true, started := x.started + x.window }

end Sys2Proof.Machine
end

