-- ==== Sys2Proof/Machine/Waits.lean ====
section
/-! DEFINITION. Barrier instances, waits, in-flight counters and operations in flight (02 R41-R51; 08 R159; 14 R237; 04 R85). -/

namespace Sys2Proof.Machine

/-! Writes by completions. -/

/-- R85: outstanding fixed-latency writes to these registers, in these lanes, land before a later write to them does (log entry 93). -/
def Wave.landRegs (w : Wave) (rs : List RReg) (lanes : List Nat) : Wave :=
  let hit : FixedWrite → Bool := fun f => rs.contains f.reg && !(f.hand && (match f.reg with | .p _ => true | _ => false)) &&
    (f.reg.isS || f.vals.any fun v => lanes.contains v.1)
  if w.lats.any hit then w.landThose hit else w

/-- A completion's write of a scalar register. -/
def Wave.putS (w : Wave) (r : BitVec 7) (x : Word) : Wave := (w.landRegs [.s r.toNat] []).wrS r x
/-- A completion's write of a scalar pair. -/
def Wave.putSPair (w : Wave) (r : BitVec 7) (x : DWord) : Wave :=
  (w.landRegs [.s r.toNat, .s (r.toNat + 1)] []).wrSPair r x
/-- A completion's write of an `n`-register vector value, by lane. -/
def Wave.putV (w : Wave) (r n : Nat) (vals : List (Nat × Nat)) : Wave :=
  let w := w.landRegs ((List.range n).map fun k => .v (r + k)) (vals.map Prod.fst)
  vals.foldl (fun w v => (List.range n).foldl (fun w k => w.wrReg (.v (r + k)) v.1 (BitVec.ofNat 32 (v.2 / 2 ^ (32 * k)))) w) w
/-- A completion's write of a predicate, by lane; pt discards it. -/
def Wave.putP (w : Wave) (p : BitVec 3) (vals : List (Nat × Bool)) : Wave :=
  if p = 7 then w
  else vals.foldl (fun w v => w.wrReg (.p p.toNat) v.1 (if v.2 then 1 else 0)) (w.landRegs [.p p.toNat] (vals.map Prod.fst))
/-- R372: a status written at once, at issue. -/
def State.putS (s : State) (id : WaveId) (r : BitVec 7) (x : Word) : State := s.modWave id fun w => w.putS r x

/-! Barrier instances (R41, R42, R96). -/

/-- The entry of a grid's record that names a barrier. -/
def Grid.barEntry (g : Grid) (b : Bar) : Option BarEntry := g.rec_.bars.find? fun e => e.bar == b
/-- R66, R96: whether a wave is a member. -/
def BarEntry.member (e : BarEntry) (wave : Nat) : Bool := e.bar.level == 0 || decide (e.first ≤ wave ∧ wave ≤ e.last)
/-- R96: the participant count of the instance that a block belongs to. -/
def Grid.barCount (g : Grid) (e : BarEntry) (block : Nat) : Nat :=
  match e.bar.level.toNat with
  | 0 => e.lanes
  | 1 => e.last - e.first + 1
  | 2 => (e.last - e.first + 1) * (g.rec_.groupBlocks (block / g.rec_.group)).length
  | _ => (e.last - e.first + 1) * g.rec_.nblocks

/-- The instance of a barrier for a wave (R41). -/
def State.bar (s : State) (id : WaveId) (b : Bar) : Barrier :=
  let m := match b.level.toNat with
    | 0 => ((s.wave id).map Wave.bars).getD []
    | 1 => ((s.block id.grid id.block).map Block.bars).getD []
    | 2 => ((s.group id.grid (s.groupOf id.grid id.block)).map Group.bars).getD []
    | _ => ((s.grid id.grid).map Grid.bars).getD []
  sget {} m b.num.toNat
/-- The instance changed. -/
def State.modBar (s : State) (id : WaveId) (b : Bar) (f : Barrier → Barrier) : State :=
  let x := f (s.bar id b)
  let n := b.num.toNat
  match b.level.toNat with
  | 0 => s.modWave id fun w => { w with bars := sset {} w.bars n x }
  | 1 => s.modBlock id.grid id.block fun k => { k with bars := sset {} k.bars n x }
  | 2 => s.modGroup id.grid (s.groupOf id.grid id.block) fun k => { k with bars := sset {} k.bars n x }
  | _ => s.modGrid id.grid fun k => { k with bars := sset {} k.bars n x }

/-- R43, R45: the generation completes when arrivals reach the count, no bytes are pending and the condition is OPEN. -/
def Barrier.settle (b : Barrier) (count : Nat) : Barrier :=
  if count ≤ b.arrived ∧ b.pend = 0 ∧ b.faulted = false then
    { b with gen := b.gen + 1, arrived := 0, lanes := 0, who := [] } else b

/-- R44: what a wait on generation `g` writes, if it has ended. -/
def Barrier.test (b : Barrier) (g : Word) : Option Nat :=
  if b.lastF = some g then some cFAULTED
  else if (g - b.gen).toInt < 0 then some cOK
  else if b.faulted ∧ b.gen = g then some cFAULTED
  else none

/-- R218: an arrival's mark: nothing where it shows no more than an earlier one. -/
def Barrier.mark (b : Barrier) (block wave n : Nat) : Barrier :=
  if n = 0 ∨ b.marks.any (fun m => m.2.1 == block && m.2.2.1 == wave && m.2.2.2 == n) then b
  else { b with marks := b.marks ++ [(b.gen, block, wave, n)] }
/-- R218: a wave of a block observes that every generation of a barrier before `g` has completed. -/
def Wave.observe (w : Wave) (block : Nat) (b : Barrier) (g : Word) : Wave :=
  { w with seen := (b.marks.filter fun m => m.2.1 == block && (m.1 - g).toInt < 0).foldl (fun l m =>
      let old := (l.find? fun x => x.1 == m.2.2.1).map Prod.snd
      if m.2.2.2 ≤ old.getD 0 then l else (l.filter fun x => x.1 != m.2.2.1) ++ [(m.2.2.1, m.2.2.2)]) w.seen }

/-! Operations in flight. -/

/-- R237: the in-flight path that an operation counts on. -/
def OpKind.cpath : OpKind → Option CPath
  | .open _ => some .open
  | .cpy .. => some .cpy
  | .bina .. | .binr .. => some .bin
  | .strongLoad scope .. | .strongStore scope .. | .atom scope .. => if scope = 0 then none else some .atom
  | _ => none

/-- R159: whether an operation is an outbound access, which performs in issue order. -/
def OpKind.outbound : OpKind → Bool
  | .commit .. | .strongStore .. => true
  | .abort level .. => level != 0
  | .atom scope .. => scope != 0
  | _ => false

/-- R237: the value of a wave's in-flight counter. -/
def State.counter (s : State) (id : WaveId) (p : CPath) : Nat :=
  (s.ops.filter fun o => o.wave == id && o.kind.cpath == some p).length

/-- R237: done operations stay while an earlier operation of their path is outstanding. -/
def pruneOps (open_ : List (WaveId × CPath)) : List Op → List Op
  | [] => []
  | o :: t =>
    match o.kind.cpath with
    | some p =>
      if o.done then (if open_.contains (o.wave, p) then o :: pruneOps open_ t else pruneOps open_ t)
      else o :: pruneOps ((o.wave, p) :: open_) t
    | none => if o.done then pruneOps open_ t else o :: pruneOps open_ t

/-- An operation by its number. -/
def State.op (s : State) (id : Nat) : Option Op := s.ops.find? fun o => o.id == id && !o.done
/-- An operation changed. -/
def State.modOp (s : State) (id : Nat) (f : Op → Op) : State :=
  { s with ops := s.ops.map fun o => if o.id = id then f o else o }

/-- The operations of a wave that issued before one and have not performed. -/
def State.earlier (s : State) (o : Op) : List Op :=
  (s.ops.takeWhile fun x => x.id != o.id).filter fun x => x.wave == o.wave && !x.done
/-- R159: whether every earlier outbound access of the wave has performed. -/
def State.outboundClear (s : State) (o : Op) : Bool := (s.earlier o).all fun x => !x.kind.outbound

/-- R15: the outstanding line requests of a core, in the order of the operations that make them: a line of an OPEN or REOPEN that it has
charged and not obtained, and the one request of an engine at work for a wave of the core, whatever its lines (DEDUCED, log entry 88). -/
def State.requests (s : State) (cid : CoreId) : List (Nat × Option Nat) :=
  s.ops.flatMap fun o =>
    if o.done || o.core != cid then []
    else match o.kind with
      | .open x => x.need.map fun l => (o.id, some l)
      | .cpy n _ _ _ bytes _ _ done none =>
        let on := ((s.block o.wave.grid o.wave.block).map fun b => b.copies.any fun k => k.n == n && k.issued).getD false
        if on && decide (done < bytes) then [(o.id, none)] else []
      | .bina .. | .binr _ _ _ _ (some _) => [(o.id, none)]
      | .matrix _ =>
        let moves : MxOp → Bool := fun m => m.id == o.id && m.begun && (match m.kind with | .ld .. | .st .. => true | _ => false)
        if s.hearths.any fun h => (h.2.queue.head?.map moves).getD false then [(o.id, none)] else []
      | _ => []
/-- R15: whether a request has one of the 1024 entries of its core; a later one waits for a free entry. -/
def State.hasEntry (s : State) (o : Op) (line : Option Nat) : Bool := ((s.requests o.core).take 1024).contains (o.id, line)

/-- The registers that an operation in flight will write: each with its number of registers and lanes (R85). -/
def OpKind.dests : OpKind → List (RReg × Nat × Lanes)
  | .open o => (.s o.st.toNat, 1, 0) :: (if o.pd = 7 then [] else [(.p o.pd.toNat, 1, o.lanes)])
  | .commit _ q st _ => (.s st.toNat, 1, 0) :: (match q with | some q => [(.s q.toNat, 2, 0)] | none => [])
  | .abort _ st => [(.s st.toNat, 1, 0)]
  | .acquire _ st _ silent _ => if silent then [] else [(.s st.toNat, 1, 0)]
  | .strongLoad _ accs ty size scalar d =>
    [(if scalar then .s d else .v d, memRegs ty (BitVec.ofNat 3 (Nat.log2 size)), maskOf (accs.map LaneAcc.lane))]
  | .strongStore _ _ => []
  | .atom _ accs ty _ d pd =>
    let m := maskOf (accs.map LaneAcc.lane)
    (.v d, ty.regs, m) :: (if pd = 7 then [] else [(.p pd.toNat, 1, m)])
  | .arrival _ _ _ d _ => [(.s d.toNat, 2, 0)]
  | .cpy _ _ _ _ _ _ st _ _ | .bina _ _ _ _ st _ | .binr _ _ _ st _ | .launch _ _ st | .msgs _ _ st | .xcinv _ _ _ _ st =>
    [(.s st.toNat, 1, 0)]
  | .matrix _ => []

/-- The registers that a waiting path will write. -/
def Wait.dests : Wait → List (RReg × Nat × Lanes)
  | .barrier _ _ d pair _ => [(.s d.toNat, if pair then 2 else 1, 0)]
  | .token _ d _ | .counter _ _ d _ | .growth _ d _ => [(.s d.toNat, 1, 0)]
  | _ => []

/-- The paths of a wave: split, which path, whether the handler's, and the path. -/
def Wave.paths (w : Wave) : List (Nat × Bool × Bool × Path) :=
  ((List.range 4).flatMap fun k =>
    let x := w.split k
    if x.st = .free then [] else (k, false, false, x.p1) :: (match x.p2 with | some p => [(k, true, false, p)] | none => []))
  ++ (match w.hand with | some h => [(h.split, h.second, true, h.path)] | none => [])

/-- R262: the DEBUG trap of a wave at the path that is next, or at its first live one. -/
def Wave.debugTrap (w : Wave) (id : WaveId) : Trap :=
  let live := (w.paths.filter fun p => !p.2.2.1).head?.map fun p => (p.1, p.2.1)
  let at_ := match w.hand with
    | some h => (h.split, h.second)
    | none => (w.nextPath.or live).getD (0, false)
  let p := w.pathAt at_.1 at_.2 w.inHandler
  { cause := .debug, record := { w.mkRecord id at_.1 .debug with pc := p.pc, mask := p.mask }, trappc := p.pc, split := at_.1, second := at_.2 }
/-- R85, R312: the pending variable-latency destinations of a wave, but for those of ended lanes, with the split and path that wait for them. -/
def State.pendingDests (s : State) (id : WaveId) (w : Wave) : List (RReg × Nat × Lanes × Nat × Bool) :=
  let live := w.lanes
  (((s.ops.filter fun o => o.wave == id && !o.done).flatMap fun o => o.kind.dests.map fun d => (d.1, d.2.1, d.2.2, o.heir, o.second))
  ++ (w.paths.flatMap fun p => match p.2.2.2.wait with
    | some x => x.dests.map fun d => (d.1, d.2.1, d.2.2, p.1, p.2.1)
    | none => [])
  ++ ((List.range 4).flatMap fun k => (w.split k).stack.flatMap fun e => match e.wait with
    | some x => x.dests.map fun d => (d.1, d.2.1, d.2.2, k, false)
    | none => [])).filter fun d => d.1.isS || d.2.2.1 &&& live != 0

/-! Ending waits. -/

/-- What a wait writes when its condition holds now (R44, R211, R238): each register with its value. -/
def State.waitResult (s : State) (id : WaveId) (w : Wave) : Wait → Option (List (BitVec 7 × Word))
  | .barrier b g d pair _ =>
    ((s.bar id b).test g).map fun code => (d, status code 0) :: (if pair then [(d + 1, g)] else [])
  | .token k d _ =>
    let t := sget {} w.toks k.toNat
    if t.st = .pending ∨ t.st = .suspended then none else some [(d, t.status)]
  | .counter p n d _ => let c := s.counter id p; if c ≤ n then some [(d, status cOK c)] else none
  | _ => none

/-- A path's wait ends: its registers are written and it is a candidate again. -/
def Wave.endWait (w : Wave) (k : Nat) (second hand : Bool) (rs : List (BitVec 7 × Word)) : Wave :=
  (rs.foldl (fun w r => w.putS r.1 r.2) w).modPath k second hand fun p => { p with wait := none }

/-- The waits of stack entries that `f` ends: the entries left, and the registers written. -/
def endStack (f : Wait → Option (List (BitVec 7 × Word))) : List StackEntry → List StackEntry × List (BitVec 7 × Word)
  | [] => ([], [])
  | e :: t =>
    let r := endStack f t
    match e.wait.bind f with
    | some rs => ({ e with wait := none } :: r.1, rs ++ r.2)
    | none => (e :: r.1, r.2)

/-- The waits of a wave that `f` ends: of its paths, its handler and its stack entries. -/
def Wave.endWaits (f : Wave → Wait → Option (List (BitVec 7 × Word))) (w : Wave) : Wave :=
  let w := w.paths.foldl (fun w p => match p.2.2.2.wait.bind (f w) with
    | some rs => w.endWait p.1 p.2.1 p.2.2.1 rs
    | none => w) w
  (List.range 4).foldl (fun w k =>
    let r := endStack (f w) (w.split k).stack
    if r.1 = (w.split k).stack then w
    else r.2.foldl (fun w x => w.putS x.1 x.2) (w.modSplit k fun x => { x with stack := r.1 })) w

/-- R236: the copies of a block, by their marks, that a wave has seen complete once its cpy counter has fallen to where it now stands. -/
def State.copiesDone (s : State) (id : WaveId) (w : Wave) : List (Nat × Nat) :=
  distinct ((((s.block id.grid id.block).map Block.shares).getD []).flatMap fun h => h.hist.filterMap fun x =>
    x.2.1.filter fun y => decide ((copyMark 0).1 < y.1 ∧ y.1 ≤ (copyMark (w.cpys - s.counter id .cpy)).1))
/-- R218, R236: what a wait that ends with OK now shows its wave. -/
def State.observed (s : State) (id : WaveId) (w : Wave) : Wait → Wave
  | .barrier b g _ _ _ => if (s.bar id b).test g = some cOK then w.observe id.block (s.bar id b) (g + 1) else w
  | .counter .cpy n _ _ => if s.counter id .cpy ≤ n then { w with seen := w.seen ++ s.copiesDone id w } else w
  | _ => w
/-- The waits of one wave whose conditions hold end. -/
def Wave.wake (s : State) (id : WaveId) (w : Wave) : Wave :=
  let waits := w.paths.filterMap (fun p => p.2.2.2.wait) ++ (List.range 4).flatMap fun k => (w.split k).stack.filterMap StackEntry.wait
  (waits.foldl (s.observed id) w).endWaits (s.waitResult id)

/-- R44, R51, R238: every wait of a resident wave whose condition holds ends. -/
def State.wake (s : State) : State :=
  { s with waves := s.waves.map fun x => (x.1, if x.2.resident then x.2.wake s x.1 else x.2) }

/-- R237: an operation that has completed at its issue: it counts while an earlier one of its path is outstanding. -/
def State.addDone (s : State) (o : Op) : State := { s with ops := pruneOps [] (s.ops ++ [{ o with done := true }]), nextOp := s.nextOp + 1 }
/-- The registers that an operation writes, one by one, by lane. -/
def OpKind.words (k : OpKind) : List (RReg × Nat) :=
  k.dests.flatMap fun d => (List.range d.2.1).flatMap fun j => match d.1 with
    | .v r => (lanesOf d.2.2).map fun l => (.v (r + j), l)
    | .s r => [(.s (r + j), 0)]
    | .p _ => []
/-- R108, R170: what a completion has written to a pre-empted wave lands in its context image. -/
def State.landImage (s : State) (id : Nat) : State :=
  match s.ops.find? fun o => o.id == id with
  | some o => if ((s.wave o.wave).map Wave.resident).getD true then s else s.landWords o.wave o.kind.words
  | none => s
/-- An operation has completed: it leaves the list, or stays counted under R237, and waits that hung on it end. -/
def State.opDone (s : State) (id : Nat) : State :=
  let s := s.landImage id
  let s := { s with ops := pruneOps [] (s.ops.map fun (o : Op) => if o.id = id then { o with done := true } else o) }
  s.wake

/-- R210, R228: a token takes its state and status. -/
def State.setTok (s : State) (id : WaveId) (k : BitVec 3) (t : Token) : State :=
  (s.modWave id fun w => { w with toks := sset {} w.toks k.toNat t }).wake

/-- The path that waits for an operation goes on. -/
def Wave.release (w : Wave) (op : Nat) : Wave := w.endWaits fun _ x => if x = .op op then some [] else none

/-- R43, R218: an arrival, which follows so many STLs of its wave, is tested and registered: the status and the generation written. -/
def State.arrive (s : State) (id : WaveId) (b : Bar) (count : Nat) (lanes : Lanes) (stls : Nat) : State × Nat × Word :=
  let x := s.bar id b
  match (s.grid id.grid).bind fun g => (g.barEntry b).map fun e => (g, e) with
  | none => (s, cNOT_MEMBER, x.gen)
  | some (g, e) =>
    let n := g.barCount e id.block
    let me := (id.block, id.wave)
    if !e.member id.wave || n != count then (s, cNOT_MEMBER, x.gen)
    else if x.faulted then (s, cFAULTED, x.gen)
    else if (if b.level = 0 then decide (x.lanes &&& lanes ≠ 0) else x.who.contains me) then (s, cALREADY, x.gen)
    else
      let s := s.modBar id b fun x =>
        (if b.level = 0 then { x with lanes := x.lanes ||| lanes, arrived := (lanesOf (x.lanes ||| lanes)).length }
         else { x.mark id.block id.wave stls with who := x.who ++ [me], arrived := x.arrived + 1 }).settle n
      (s, cOK, x.gen)

end Sys2Proof.Machine
end

