-- ==== Sys2Proof/Machine/Issue.lean ====
section
/-! DEFINITION. One issue of one instruction: the checks that precede its meaning (R90 steps 3, 7 and 9, R85, R87, R88, R113,
R271) and what follows it (R73, R81, R82, R106). -/

namespace Sys2Proof.Machine

/-! Who issues. -/

/-- R141: whether a wave that has been resumed has still to reopen bindings. -/
def Wave.rebinding (w : Wave) : Bool := w.wins.any fun b => b.2.st == .pending
/-- R51, R114, R122, R141, R260, R262, R270: whether a wave is in a state in which a path of it may issue. -/
def Wave.runs (w : Wave) : Bool :=
  w.resident && !w.dbg && !w.rebinding && w.hold.isNone && !w.evicted && w.ctxPark.isNone &&
    (match w.mode with | .halted .. => false | _ => true)

/-- R36: whether a path is a candidate but for its spacing and its yield. -/
def Wave.candidate (w : Wave) (k : Nat) (second hand : Bool) : Bool :=
  if hand then
    match w.hand with
    | some h => h.split == k && h.second == second && h.path.wait.isNone
    | none => false
  else
    let x := w.split k
    let p := x.path second
    x.st == .running && (!second || x.p2.isSome) && p.wait.isNone && !p.atJoin && p.mask != 0

/-- The issuing path as `State.cur` names it; in handler mode it is the handler. -/
def State.issuer (s : State) : Option Ctx :=
  match s.wave s.cur.wave, s.grid s.cur.wave.grid with
  | some w, some g =>
    let hand := w.inHandler
    let (k, second) := match hand, w.hand with
      | true, some h => (h.split, h.second)
      | _, _ => (s.cur.split, s.cur.second)
    if w.runs && w.candidate k second hand then
      let p := w.pathAt k second hand
      some { id := s.cur.wave, w := w.view (s.clk w.core.die) s.fresh, split := k, second := second, hand := hand, pc := p.pc
             mask := if hand then 1 else p.mask, sel := 0, grid := g, now := s.clk w.core.die, fresh := s.fresh }
    else none
  | _, _ => none

/-- R79: the context with the lanes that an instruction's guard selects. -/
def Ctx.guard (c : Ctx) (i : Instr) : Ctx := { c with sel := guardSel c.w c.hand (hdrOf i).guard c.mask, cls := opClass i }

/-! Translation (R145, R146). -/

/-- What a lookup gives: a physical address, a failure, or a wait for the host. -/
inductive Look where
  | ok (pa : Nat)
  | fail
  | wait
  deriving DecidableEq, Repr

/-- R145, R146, R19: the translation of a virtual address on a die, with the permission `need` asks of the page. -/
def State.look (s : State) (die space va : Nat) (need : Perms → Bool) : Look :=
  if 2 ^ 56 ≤ va then .fail
  else match s.walk space va with
    | none => .fail
    | some (pa, p) =>
      if !need p then .fail
      else if isHost pa then
        match tget (s.die die).ats (space, va / 4096) with
        | some (some (hp, q)) => if need q && decide (hp + va % 4096 < hostBase) then .ok (hostBase + hp + va % 4096) else .fail
        | _ => .wait
      else if (homeOf pa).isSome then .ok pa else .fail
/-- Read permission. -/
def needR (p : Perms) : Bool := p.r
/-- Read and write permission. -/
def needRW (p : Perms) : Bool := p.r && p.w
/-- Write permission. -/
def needW (p : Perms) : Bool := p.w
/-- R74: execute permission. -/
def needX (p : Perms) : Bool := p.x

/-! Registers of an instruction. -/

/-- The registers of an instruction in a wave of width `w`: a ballot of a 64-wide wave writes a pair (R375). -/
def usesAt (w : Nat) : Instr → List Use
  | .vote _ .ballot d a => dstUse d (if w = 64 then 2 else 1) ++ rP .a a
  | i => uses i

/-- Whether two runs of registers of one file meet. -/
def runsMeet (a : RReg) (n : Nat) (b : RReg) (m : Nat) : Bool :=
  match a, b with
  | .v x, .v y | .s x, .s y => decide (x < y + m ∧ y < x + n)
  | .p x, .p y => x == y
  | _, _ => false

/-- The guard as a read: reported as field A when it alone is at fault (R87). -/
def guardUse (i : Instr) : Use := ⟨.a, .p (hdrOf i).guard.p.toNat, 1, true, false, false⟩

/-- The guard as a read: none where the rules ignore it, at JOIN (R33, R325) and at a REOPEN of a handler (R140). -/
def guardReads (i : Instr) (c : Ctx) : List Use :=
  match i with
  | .join _ => []
  | .reopen .. | .reopenTrap .. => if c.hand then [] else [guardUse i]
  | i => [guardUse i]

/-- R85: whether a register that the instruction reads or writes has a variable-latency write pending: of the same path in any
lane, or of another path in a lane of this one. -/
def scoreboardHold (i : Instr) (c : Ctx) (s : State) : Bool :=
  let us := guardReads i c ++ (usesAt c.w.width i).filter fun u => u.rd || u.wr
  (s.pendingDests c.id c.w).any fun d =>
    (d.1.isS || (d.2.2.2.1 == c.split && d.2.2.2.2 == c.second) || d.2.2.1 &&& c.mask != 0 || us.any Use.any) &&
      !(c.hand && !d.1.isS) && us.any fun u => runsMeet u.reg u.n d.1 d.2.1

/-- Whether an outstanding fixed-latency write is of the executing path. -/
def Ctx.ownWrite (c : Ctx) (f : FixedWrite) : Bool := f.split == c.split && f.second == c.second && f.hand == c.hand && f.place.isNone

/-- R88: whether the instruction reads a scalar that another split or path has a fixed-latency write outstanding to. -/
def scalarHold (i : Instr) (c : Ctx) (s : State) : Bool :=
  let us := (usesAt c.w.width i).filter Use.rd
  let lats := ((s.wave c.id).map Wave.lats).getD []
  lats.any fun f => f.reg.isS && decide (c.now < f.due) && !c.ownWrite f && us.any fun u => runsMeet u.reg u.n f.reg 1

/-- R205: the hearth that a core of a block leads, if the block spans it. -/
def State.hearthOf (s : State) (id : WaveId) (w : Wave) : Option (Nat × Nat) :=
  match s.block id.grid id.block with
  | some b => if 2 ≤ b.ncores ∧ w.core.core % 2 = 0 then some (w.core.die, w.core.core / 2) else none
  | none => none

/-- R207, R209: the hold of a matrix instruction. -/
def matrixHold (k : BitVec 3) (c : Ctx) (s : State) : Bool :=
  match s.hearthOf c.id c.w with
  | some h => c.any && ((sget {} c.w.toks k.toNat).st == .pending || decide (8 ≤ (s.hearth h).queue.length))
  | none => false

/-- R237: the hold of an instruction that would raise a full in-flight counter. -/
def counterHold (p : CPath) (c : Ctx) (s : State) : Bool := decide (255 ≤ s.counter c.id p)

/-- R15, R51, R140: the hold of an OPEN or REOPEN that has lanes to act on, on a full request table; in handler mode REOPEN ignores its
guard. -/
def requestHold (c : Ctx) (s : State) : Bool := (c.any || c.hand) && decide (1024 ≤ (s.requests c.w.core).length)

/-- R377, order 3: whether a shrink to `n` registers waits for a pending write at or above `n`. -/
def shrinkHold (n : Opnd) (c : Ctx) (s : State) : Bool :=
  let v := c.rd n 1 0 immZ
  c.any && decide (v % 8 = 0 ∧ 8 ≤ v ∧ v < c.w.valloc) &&
    (((s.pendingDests c.id c.w).any fun d => match d.1 with | .v r => decide (v < r + d.2.1) | _ => false) ||
      (((s.wave c.id).map Wave.lats).getD []).any fun f => match f.reg with | .v r => decide (v ≤ r ∧ c.now < f.due) | _ => false)

/-- R131, R165, R166: whether an update of a line is still on its way to a core with a byte that a wave has read or written at the device level
at that place in coherence order or a later one: a plain read of the line waits until the core has applied it, whole (DEDUCED, log entry
57). -/
def State.behind (s : State) (id : WaveId) (cid : CoreId) (line : Nat) : Bool :=
  let k := s.core cid
  k.updq.any fun u => u.line == line && k.floors.any fun f => f.grid == id.grid && f.wave == some (id.block, id.wave) && f.pa / 128 == line &&
    decide (u.seq ≤ f.seq) && (cget u.bytes (f.pa % 128)).isSome
/-- R131, R165, R166: whether a plain read in some lanes through a window waits for an update. -/
def readHold (n : Nat) (ls : List Nat) (c : Ctx) (s : State) : Bool :=
  ls.any fun l => (c.w.bind l n).st == .bound && s.behind c.id c.w.core (c.w.bind l n).line
/-- R149, R160: whether a record of scope wave that a COMMIT drains at issue must be translated again and waits for the host (R146), which
has not refused its page, or reads a line whose update its core has still to apply (R165, R166). -/
def drainHold (c : Ctx) (s : State) : Bool :=
  c.any && (((s.block c.id.grid c.id.block).map Block.reds).getD []).any fun r =>
    r.scope == 0 && r.wave == c.id.wave && ((r.marked && !r.denied && s.look c.w.core.die r.space (128 * r.va) needW == .wait) ||
      s.behind c.id c.w.core r.pa)

/-- The holds at issue of R51's third row, of R160, R166 and R377. An OPEN or REOPEN counts even where it has no lane to act on: it still writes its
status (R128, R139). -/
def resourceHold (i : Instr) (c : Ctx) (s : State) : Bool :=
  match i with
  | .open .. | .reopen .. | .reopenTrap .. => counterHold .open c s || requestHold c s
  | .cpy .. => c.any && counterHold .cpy c s
  | .bina .. | .binr .. => c.any && counterHold .bin c s
  | .atom _ _ w _ _ _ _ scope _ => if scope = 0 then readHold w.toNat c.lanes c s else c.any && counterHold .atom c s
  | .ldw _ _ w _ _ _ .nochk | .ldw _ _ w _ _ _ (.chk _) => readHold w.toNat c.lanes c s
  | .ldws _ _ w _ _ _ .nochk | .ldws _ _ w _ _ _ (.chk _) => readHold w.toNat (c.lanes.take 1) c s
  | .ldw _ _ _ _ _ _ (.sc k) | .ldws _ _ _ _ _ _ (.sc k) | .stw _ _ _ _ _ _ (.sc k) | .stws _ _ _ _ _ _ (.sc k) =>
    c.any && k != 0 && counterHold .atom c s
  | .mma _ k .. | .mxld _ k .. | .mxst _ k .. | .mxz _ k .. => matrixHold k c s
  | .vregs _ _ n _ => shrinkHold n c s
  | .commit .. => drainHold c s
  | _ => false

/-- Whether an instruction holds at issue (R51, R85, R88). -/
def held (i : Instr) (c : Ctx) (s : State) : Bool := scoreboardHold i c s || scalarHold i c s || resourceHold i c s

/-! Exact traps before the meaning. -/

/-- An exact trap of the issuing path (R255, R265). -/
def Ctx.exact (c : Ctx) (cause : Cause) (sub : Nat) (fld : Fld) (mask : Lanes) (addr : DWord) : Trap :=
  { cause := cause, record := { c.w.mkRecord c.id c.split cause with sub := sub, field := fld, pc := c.pc, mask := mask, addr := addr }
    trappc := c.pc, split := c.split, second := c.second }

/-- R90 step 9: the first field whose register lies at or above its allocation. -/
def allocFault (i : Instr) (w : Wave) : Option Fld :=
  ((usesAt w.width i).find? fun u => match u.reg with
    | .v r => decide (w.valloc < r + u.n)
    | .s r => decide (w.salloc < r + u.n)
    | .p _ => false).map Use.fld

/-- R90 step 7 for a ballot of a 64-wide wave (R375). -/
def ballotFault : Instr → Nat → Bool
  | .vote _ .ballot (.v r) _, w => w == 64 && r.toNat % 2 == 1
  | .vote _ .ballot (.s r) _, w => w == 64 && r.toNat % 2 == 1
  | _, _ => false

/-- R90 steps 3, 7 and 9 and R257, in order: the trap that an instruction meets before it reads anything. -/
def entryTrap (i : Instr) (c : Ctx) : Option Trap :=
  if c.hand && !inSubset i then some (c.exact .priv 0 .none c.mask 0)
  else if needsPriv i && !c.hand && !c.w.firmware then some (c.exact .priv 0 .none c.mask 0)
  else if ballotFault i c.w.width then some (c.exact .illegal 7 .d c.mask 0)
  else (allocFault i c.w).map fun f => c.exact .illegal 6 f c.mask 0

/-- The lanes in which an instruction reads a vector operand: the lowest selected lane of the matrix instructions (R213, R219) and of the
scalar accesses (R331, R371), the lane that READLANE names (R349), else the selected lanes. -/
def readLanes (i : Instr) (c : Ctx) (u : Use) : List Nat :=
  match i with
  | .mma .. | .mxld .. | .mxst .. | .ldws .. | .stws .. => c.lanes.take 1
  | .readlane _ _ _ b _ => if u.any then [c.rd1 b 1 immZ % c.w.width] else c.lanes
  | .cstw _ _ _ _ _ _ => if u.fld = .b then (lowest c.mask).toList else c.lanes
  | _ => c.lanes

/-- The register lines that an instruction reads, with the field that reads each. -/
def readLines (i : Instr) (c : Ctx) : List (Fld × Nat) :=
  if !c.any then []
  else ((usesAt c.w.width i).filter Use.rd).flatMap fun u => match u.reg with
    | .s r => (List.range u.n).map fun k => (u.fld, sline (r + k))
    | .v r => (List.range u.n).flatMap fun k => (readLanes i c u).map fun l => (u.fld, vline c.w.width (r + k) l)
    | .p _ => []

/-- R88: whether an outstanding result is of the same split or path as the executing one: a scalar that its path wrote, or a vector or
predicate that its split wrote in a lane that the path now has, be it before a divergence of two paths or on a path that has merged. A
result that the lane had in another split, before BRA.SPLIT made a new one or a JOIN merged them, is of that split and is not checked
(log entry 55). READLANE names a lane that its path need not have (R349): `lane` is that one. -/
def Ctx.sameWrite (c : Ctx) (lane : Option Nat) (f : FixedWrite) : Bool :=
  if f.reg.isS then c.ownWrite f
  else f.split == c.split && f.hand == c.hand && f.vals.any fun v => c.mask.getLsbD v.1 || (some v.1 == lane && c.ownWrite f)

/-- R87, R88: the first field, in the order D, A, B and then the guard, that reads a fixed-latency result too early, and its
producer. The rules leave four points open, and the model chooses (DESIGN CHOICE, log entry 55): of several operands that are read too
early D is named before A, and A before B; a selecting predicate that the modifiers carry (SEL, SSEL) is reported as field A; of several
outstanding writes to the register the PC of the one issued last is reported; and operands count as read even where the guard selects no
lane. -/
def stallFault (i : Instr) (c : Ctx) (s : State) : Option (Fld × PC) :=
  let us := (usesAt c.w.width i).filter Use.rd
  let lats := ((s.wave c.id).map Wave.lats).getD []
  let late : Use → Option PC := fun u =>
    ((lats.filter fun f =>
      decide (c.now < f.due) && runsMeet u.reg u.n f.reg 1 &&
        c.sameWrite (if u.any then (readLanes i c u).head? else none) f).getLast?).map FixedWrite.pc
  (us.findSome? fun u => (late u).map fun p => (if u.fld = .none then .a else u.fld, p)).or
    (((guardReads i c).findSome? late).map fun p => (.a, p))

/-! The next instruction of a path. -/

/-- The line of a PC (R72). -/
def pcLine (pc : PC) : Nat := pc.toNat / 128
/-- The code line of a PC that a core holds for an address space (R74). -/
def Core.codeLine (k : Core) (space : Nat) (pc : PC) : Option (List Byte × Bool) := tget k.fetch (space, pcLine pc)
/-- R71: the word in the slot of a PC. -/
def slotWord (line : List Byte) (pc : PC) : IWord := wordOfBytes ((line.drop (12 * (pc.extractLsb' 0 4).toNat)).take 12)

/-! The issue. -/

/-- R156: the records that a wave takes at its first issue. -/
def State.beginIssue (s : State) (id : WaveId) : State :=
  match s.wave id with
  | some w =>
    if w.started then s
    else
      let b := ((s.block id.grid id.block).map fun b => (b.gen, b.moves)).getD (0, 0)
      let g := ((s.group id.grid (s.groupOf id.grid id.block)).map fun g => (g.gen, g.moves)).getD (0, 0)
      s.setWave id { w with started := true, recBlock := b, recCluster := g }
  | none => s

/-- R82: a yield whose stall count has run ends when another candidate of the partition issues. -/
def Path.unyield (now : Nat) (p : Path) : Path :=
  match p.yieldAt with
  | some t => if t ≤ now then { p with yieldAt := none } else p
  | none => p

/-- R82: the same for a path that waits in a stack. -/
def StackEntry.unyield (now : Nat) (e : StackEntry) : StackEntry :=
  match e.yieldAt with
  | some t => if t ≤ now then { e with yieldAt := none } else e
  | none => e

/-- R82: every path of a wave takes note of an issue in its partition. -/
def Wave.unyield (now : Nat) (w : Wave) : Wave :=
  { w with splits := w.splits.map fun x => { x with p1 := x.p1.unyield now, p2 := x.p2.map (Path.unyield now)
                                                    stack := x.stack.map (StackEntry.unyield now) }
           hand := w.hand.map fun h => { h with path := h.path.unyield now } }

/-- R81, R82: the spacing and the yield that an issue gives its path. -/
def Path.spaced (now : Nat) (h : Hdr) (y : Bool) (p : Path) : Path :=
  { p with readyAt := now + max h.st.toNat 1, yieldAt := if y then some (now + max h.st.toNat 1) else none }

/-- R82, R384: whether an issue sets the yield. -/
def yields (i : Instr) (c : Ctx) : Bool := (hdrOf i).y || (match i with | .yield _ => c.any | _ => false)

/-- R27: whether two issues of one slot are of packed waves, or of both paths of one split. -/
def Issue.related (x y : Issue) : Bool :=
  x.slot == y.slot && (x.path.wave != y.path.wave || (x.path.split == y.path.split && x.path.second != y.path.second))
/-- R27: whether two related issues may be one combined issue: of one opcode class, in slices that do not meet. -/
def Issue.combines (x y : Issue) : Bool := x.cls == y.cls && x.slices &&& y.slices == 0
/-- R27: the issue of this clock that another one may be combined with, by its number: the one issue that everything related to it is part
of, all of whose parts are related to it and combine with it. -/
def Core.joins (k : Core) (x : Issue) : Option Nat :=
  match k.issues.filter x.related with
  | [] => none
  | y :: t =>
    if t.all (fun z => z.no == y.no) && (k.issues.filter fun z => z.no == y.no).all (fun z => x.related z && x.combines z) then some y.no else none
/-- R27, R106: the mark of an issue, which is part of the issue that it may be combined with, or the first part of a new one. -/
def Core.markOf (k : Core) (x : Issue) : Issue :=
  match k.joins x with
  | some n => { x with no := n, joined := true }
  | none => { x with no := k.issues.length }
/-- The issue that a context makes. -/
def Ctx.mark (c : Ctx) : Issue :=
  { part := c.w.part, slot := c.w.slot, path := ⟨c.id, c.split, c.second⟩, cls := c.cls, slices := slicesOf c.w.width c.w.pos c.mask }
/-- R50, R82, R106: the marks of an issue on its wave, its core and its partition. -/
def State.markIssue (s : State) (c : Ctx) : State :=
  let s := { s with
    waves := s.waves.map fun (x : WaveId × Wave) =>
      if x.1 = c.id then (x.1, { x.2 with overdue := none, readySince := some (c.now + 1) }.unyield c.now)
      else if x.2.core = c.w.core ∧ x.2.part = c.w.part then (x.1, x.2.unyield c.now) else x
    fresh := s.fresh + 1 }
  s.modCore c.w.core fun k => { k with issues := k.issues ++ [k.markOf c.mark] }

/-- R236: an instruction that reads the status of a completed copy has its wave observe it; one that overwrites it unread leaves it unobserved. -/
def Wave.readStatus (w : Wave) (i : Instr) (c : Ctx) : Wave :=
  if w.unread.isEmpty || !c.any then w
  else
    let meets : (Use → Bool) → Nat × Nat → Bool := fun f x => (usesAt c.w.width i).any fun u => f u && runsMeet u.reg u.n (.s x.1) 1
    { w with seen := w.seen ++ (w.unread.filter (meets Use.rd)).map fun x => copyMark x.2
             unread := w.unread.filter fun x => !meets (fun u => u.rd || u.wr) x }
/-- The issuing path goes on at `pc`. -/
def State.advance (s : State) (i : Instr) (c : Ctx) (pc : PC) : State :=
  s.modWave c.id fun w => (w.readStatus i c).modPath c.split c.second c.hand fun p => ({ p with pc := pc } : Path).spaced c.now (hdrOf i) (yields i c)

/-- The window of an access (R130, R140). -/
def winOf : Instr → Option Nat
  | .ldw _ _ w .. | .ldws _ _ w .. | .stw _ _ w .. | .stws _ _ w .. | .cstw _ _ w .. | .atom _ _ w .. | .red _ w .. => some w.toNat
  | _ => none

/-- What an instruction whose effect is `t` leaves: the issue is marked, and the path goes on at `pc`. -/
def State.issued (t : State) (i : Instr) (c : Ctx) (pc : PC) : State := (t.markIssue c).advance i c pc
/-- What an effect leaves: the path moved on, or the trap taken. `s` is the state at issue. -/
def Eff.conclude (i : Instr) (c : Ctx) (s : State) : Eff → State
  | .ok t => t.issued i c (nextPc c.pc)
  | .goto pc t => t.issued i c pc
  | .raw t => t
  | .trap cause sub fld mask addr => s.takeTrap c.id { c.exact cause sub fld mask addr with win := winOf i }
  | .trapDetail cause fld mask addr detail =>
    let t := c.exact cause 0 fld mask addr
    s.takeTrap c.id { t with record := { t.record with detail := detail }, win := winOf i }
  | .trapAfter t cause fld mask addr pc detail =>
    let x := c.exact cause 0 fld mask addr
    ((t.markIssue c).advance i c pc).takeTrap c.id { x with record := { x.record with detail := detail }, trappc := pc }

/-- One issue of an instruction by the path that `State.cur` names. -/
def issue (i : Instr) (s : State) (body : Ctx → State → Eff) : Host.Outcome State Fault Refusal :=
  match s.issuer with
  | none => .fault .noPath
  | some c0 =>
    let c := c0.guard i
    match entryTrap i c with
    | some t => .next (s.takeTrap c.id t)
    | none =>
      if held i c s then .next s
      else
        match (readLines i c).find? fun l => c.w.away.contains l.2 with
        | some l => .next (s.modWave c.id fun w => w.modPath c.split c.second c.hand fun p => { p with wait := some (.regLine l.2) })
        | none =>
          match (if c.grid.rec_.check then stallFault i c s else none) with
          | some f => .next (s.takeTrap c.id (c.exact .stallCheck 0 f.1 c.mask f.2))
          | none =>
            match (readLines i c).find? fun l => c.w.badRegs.contains l.2 with
            | some l => .next (s.takeTrap c.id (c.exact .dataError 0 l.1 c.mask 0))
            | none =>
              .next ((body c (s.beginIssue c.id)).conclude i c s)

/-- The context in which an instruction reaches its own meaning: none where no path may issue it, where it traps before it reads
anything, holds, waits for a register line, reads a result too early in a checked launch, or reads an uncorrectable register line. -/
def State.clears (s : State) (i : Instr) : Option Ctx :=
  match s.issuer with
  | none => none
  | some c0 =>
    let c := c0.guard i
    if (entryTrap i c).isSome || held i c s || (readLines i c).any (fun l => c.w.away.contains l.2 || c.w.badRegs.contains l.2) ||
        (c.grid.rec_.check && (stallFault i c s).isSome) then none
    else some c

end Sys2Proof.Machine
end

