-- ==== Sys2Proof/Machine/Lines.lean ====
section
/-! DEFINITION. Bindings, credits, the line store, translation, store buffers and their overlay, device-level writes, updates and
recalls (06 R117-R119, R124, R125, R129-R149; 08 R151-R153, R165, R168, R388). Lines are named by their physical line number. -/

namespace Sys2Proof.Machine

/-! Bindings and credits. -/

/-- A list of numbers in ascending order. -/
def ascending (l : List Nat) : List Nat := sortBy (fun a b => decide (a ≤ b)) l
/-- The lines that a wave's BOUND bindings name. -/
def Wave.boundLines (w : Wave) : List Nat :=
  distinct ((w.wins.filter fun b => b.2.st == .bound).map fun b => b.2.line)

/-- R119: the lines that a wave is charged for: those it holds, and those an OPEN of it has charged and not yet obtained. -/
def State.heldLines (s : State) (id : WaveId) (w : Wave) : List Nat :=
  distinct (w.boundLines ++ (s.ops.filter fun o => o.wave == id && !o.done).flatMap fun o => match o.kind with
    | .open x => x.need
    | _ => [])
/-- R119: the shared credits left on a core. -/
def State.poolFree (s : State) (cid : CoreId) : Nat :=
  let ws := s.wavesOn cid
  (s.core cid).lines - 16 * ws.length - (ws.map fun x => ((s.heldLines x.1 x.2).filter fun l => x.2.shared.contains l).length).sum
/-- R119, R125: one line charged to a wave: nothing if it is held, else a reserve credit, else a shared credit; none if no credit
is left. -/
def State.charge (s : State) (id : WaveId) (line : Nat) : Option State :=
  match s.wave id with
  | none => none
  | some w =>
    let held := s.heldLines id w
    if held.contains line then some s
    else if (held.filter fun l => !w.shared.contains l).length < 16 then
      some (s.setWave id { w with shared := w.shared.filter fun l => l != line })
    else if 0 < s.poolFree w.core then
      some (s.setWave id { w with shared := (w.shared.filter fun l => held.contains l) ++ [line] })
    else none

/-! Translation for an operation, and the state of homes. -/

/-- R146: the translation of an address for an operation in flight: a page that the host has refused to it fails. -/
def State.seek (s : State) (o : Op) (space va : Nat) (need : Perms → Bool) : Look :=
  match s.look o.core.die space va need with
  | .wait => if o.denied.contains (va / 4096) then .fail else .wait
  | x => x
/-- Whether the home die of a line is online (R19). -/
def State.lineUp (s : State) (line : Nat) : Bool := match homeOf (128 * line) with | some d => s.up d | none => false

/-! Store buffers (R152). -/

/-- R149, R153: whether two deltas are of one line: by physical line, or by virtual line and space once either is marked. -/
def Delta.meets (a b : Delta) : Bool :=
  if a.marked || b.marked then a.space == b.space && a.va == b.va else a.pa == b.pa
/-- R152: whether two deltas are one: of one line under one virtual line address. -/
def Delta.same (a b : Delta) : Bool := a.meets b && a.space == b.space && a.va == b.va
/-- The bytes of a delta without some offsets. -/
def Delta.without (d : Delta) (offs : List Nat) : Delta := { d with bytes := d.bytes.filter fun b => !offs.contains b.1 }
/-- Bytes put into the first of the deltas that are one with `d`; other deltas of the line lose them. -/
def putFirst (d : Delta) (offs : List Nat) : List Delta → List Delta × Bool
  | [] => ([], false)
  | x :: t =>
    if x.same d then
      ({ x with bytes := d.bytes.foldl (fun l b => cset l b.1 b.2) x.bytes } :: t.map fun y =>
        if y.meets d then y.without offs else y, true)
    else let r := putFirst d offs t; ((if x.meets d then x.without offs else x) :: r.1, r.2)
/-- R152: a delta's bytes enter a buffer. -/
def bufPut (buf : List Delta) (d : Delta) : List Delta :=
  if d.bytes.isEmpty then buf
  else
    let r := putFirst d (d.bytes.map Prod.fst) buf
    (if r.2 then r.1 else r.1 ++ [d]).filter fun x => !x.bytes.isEmpty
/-- R163: bytes leave a buffer: those, by delta and offset, that `p` names. -/
def bufTake (p : Delta → Nat → Bool) (buf : List Delta) : List Delta :=
  (buf.map fun d => { d with bytes := d.bytes.filter fun b => !p d b.1 }).filter fun d => !d.bytes.isEmpty
/-- The bytes of runs, each an access with its length. -/
def watchOf (runs : List (LaneAcc × Nat)) : Watch :=
  let at_ : (LaneAcc → Nat) → List (Nat × Nat) := fun line => runs.flatMap fun x => (List.range x.2).map fun k => (line x.1 / 128, x.1.pa % 128 + k)
  { vas := at_ LaneAcc.va, pas := at_ LaneAcc.pa }
/-- Bytes but for others. -/
def Watch.without (w x : Watch) : Watch :=
  { vas := w.vas.filter fun b => !x.vas.contains b, pas := w.pas.filter fun b => !x.pas.contains b }
/-- Bytes that are also others. -/
def Watch.within (w x : Watch) : Watch :=
  { vas := w.vas.filter fun b => x.vas.contains b, pas := w.pas.filter fun b => x.pas.contains b }
/-- R149, R163: whether a byte of a delta is among them. -/
def Watch.holds (w : Watch) (space : Nat) (d : Delta) (off : Nat) : Bool :=
  if d.marked then d.space == space && w.vas.contains (d.va, off) else w.pas.contains (d.pa, off)

/-- The delta that names a line alone. -/
def probe (space va pa : Nat) : Delta := { space := space, va := va, pa := pa, bytes := [] }
/-- The delta that a buffer list gives a byte from, with the byte. -/
def bufGet (p : Delta) (off : Nat) : List Delta → Option (Byte × Bool)
  | [] => none
  | d :: t => match (if d.meets p then cget d.bytes off else none) with
    | some b => some (b.val, d.bad)
    | none => bufGet p off t
/-- What a buffer holds of a byte of a delta's line. -/
def bufHeld (buf : List Delta) (d : Delta) (off : Nat) : Option DByte :=
  buf.findSome? fun x => if x.meets d then cget x.bytes off else none

/-- The COMMITs in flight of a wave, the latest first: what each carries and has not moved is read behind the wave buffer. -/
def State.snaps (s : State) (id : WaveId) : List Delta :=
  ((s.ops.filter fun o => o.wave == id && !o.done).reverse).flatMap fun o => match o.kind with
    | .commit _ _ _ d => d
    | _ => []
/-- The block buffer of a wave. -/
def State.blockBuf (s : State) (id : WaveId) : List Delta := ((s.block id.grid id.block).map Block.buf).getD []
/-- The cluster buffer of a wave. -/
def State.clusterBuf (s : State) (id : WaveId) : List Delta :=
  ((s.group id.grid (s.groupOf id.grid id.block)).map Group.buf).getD []
/-- R163, R166: whether a byte of its wave's store buffer is one that a strong store in flight, or an ATOM in flight whose operation always
writes, is to take out of it: those apart that the wave has stored to since it issued. -/
def Op.hides (o : Op) (d : Delta) (off : Nat) : Bool :=
  !o.done && o.watch.holds o.space d off && match o.kind with
    | .strongStore sc _ => sc != 0
    | .atom sc _ _ op _ _ => sc != 0 && op != .cas
    | _ => false
/-- R163, R166: a wave's buffered bytes but for those that an access in flight of it hides: no later plain read sees them (DEDUCED, log entry
79). -/
def State.uncovered (s : State) (id : WaveId) (buf : List Delta) : List Delta :=
  bufTake (fun d off => s.ops.any fun o => o.wave == id && o.hides d off) buf
/-- R153, R163: the buffers that a read at scope `sc` overlays, in order. -/
def State.buffers (s : State) (id : WaveId) (sc : Nat) : List Delta :=
  (if sc = 0 then s.uncovered id (((s.wave id).map Wave.wbuf).getD [] ++ s.snaps id) else []) ++
    (if sc ≤ 1 then s.blockBuf id else []) ++ (if sc ≤ 2 then s.clusterBuf id else [])

/-! The line store. -/

/-- Whether a line's entry is pinned on a core (R118). -/
def State.pinned (s : State) (cid : CoreId) (line : Nat) : Bool :=
  (s.wavesOn cid).any fun x => x.2.wins.any fun b => b.2.st == .bound && b.2.line == line
/-- R388: the place that a cluster group's copy of a byte may not fall behind. -/
def Core.floorOf (k : Core) (grid group pa : Nat) : Nat :=
  (k.floors.filter fun f => f.pa == pa && f.grid == grid && f.group == group && f.wave.isNone).foldl (fun m f => max m f.seq) 0
/-- R142, R388: a byte of a pinned entry as a wave reads it: the entry, and over it the bytes that its group's COMMITs have moved to the
device level and whose update is still on its way to the core. -/
def State.entryByte (s : State) (id : WaveId) (cid : CoreId) (line off : Nat) : Byte :=
  let k := s.core cid
  let floor := k.floorOf id.grid (s.groupOf id.grid id.block) (128 * line + off)
  let base := match tget k.store line with | some e => sget 0 e.bytes off | none => 0
  k.updq.foldl (fun b u => if u.line = line ∧ u.seq ≤ floor then (cget u.bytes off).getD b else b) base
/-- R153: a byte as a plain read sees it, and whether it lies in a delta found uncorrectable. -/
def State.plainByte (s : State) (id : WaveId) (cid : CoreId) (va line off : Nat) : Byte × Bool :=
  match bufGet (probe (s.spaceOf id.grid) va line) off (s.buffers id 0) with
  | some r => r
  | none => (s.entryByte id cid line off, false)

/-! The L2 caches (R16, R124). -/

/-- The lines of one die's L2: 96 MiB. -/
def l2Lines : Nat := 786432
/-- R144: an L2 line once those of its updates that `p` names have been applied; none once a recall has. -/
def L2Line.apply (p : Update → Bool) (l : L2Line) : Option L2Line :=
  if l.pend.any fun u => p u && u.drop then none
  else some { l with bytes := (l.pend.filter p).foldl (fun b u => putBytes b u.bytes) l.bytes, pend := l.pend.filter fun u => !p u }
/-- R144: the L2 of a die applies what has come to it. -/
def State.settleL2 (s : State) (die : Nat) (p : Update → Bool) : State :=
  { s with l2 := s.l2.filterMap fun x => if x.1.1 = die then (x.2.apply p).map fun l => (x.1, l) else some x }
/-- What is on its way to a die's L2. -/
def State.l2Pend (s : State) (die : Nat) : List Update := s.l2.flatMap fun x => if x.1.1 = die then x.2.pend else []
/-- R16, R244: the lines that a die's L2 has room for: each replay that runs there takes 2 MiB of it (log entry 91). -/
def State.l2Room (s : State) (die : Nat) : Nat :=
  l2Lines - 16384 * (s.ops.filter fun o => !o.done && o.core.die == die && (match o.kind with | .binr _ _ _ _ (some _) => true | _ => false)).length
/-- R124: a way found in a die's L2: a line of RRPV 3 goes, once every RRPV has been raised until one has it; which of several is open
(R8). What memory holds of the line is never older than the L2's copy, so that nothing is left to write back. -/
def State.evictL2 (s : State) (die : Nat) : State :=
  let mine := s.l2.filter fun x => x.1.1 == die
  if mine.length < s.l2Room die then s
  else
    let up := 3 - mine.foldl (fun m x => max m x.2.rrpv) 0
    let top := (mine.filter fun x => x.2.rrpv + up == 3).map Prod.fst
    let v := top[(Config.freeWord s.fresh 3).toNat % top.length]?
    { s with fresh := s.fresh + 1
             l2 := (s.l2.filter fun x => some x.1 != v).map fun x => if x.1.1 = die then (x.1, { x.2 with rrpv := x.2.rrpv + up }) else x }
/-- R244: lines leave a die's L2 until it holds no more than it has room for. -/
def State.trimL2 (s : State) (die : Nat) : State :=
  (List.range ((s.l2.filter fun x => x.1.1 == die).length - s.l2Room die)).foldl (fun s _ => s.evictL2 die) s
/-- R138: the copy of a line in a die's L2, unless an engine's recall is on its way to it: the home gives such a line anew, where the table of
R177 would still allow the old bytes (DEDUCED, log entry 100). -/
def State.l2Hit (s : State) (die line : Nat) : Option L2Line :=
  (tget s.l2 (die, line)).filter fun e => !e.pend.any Update.drop
/-- R136, R271: whether a fetch of a line on a die finds an uncorrectable error: its L2 has no copy, and the home's is one. -/
def State.lineBad (s : State) (die line : Nat) : Bool := s.badLines.contains line && (s.l2Hit die line).isNone
/-- R16, R124: a line as a die's L2 gives it, with what is on its way to that copy: a hit sets its RRPV to 0, a miss takes the line from its
home with the reuse distance. -/
def State.viaL2 (s : State) (die line rd : Nat) : State × L2Line :=
  match s.l2Hit die line with
  | some e => ({ s with l2 := tset s.l2 (die, line) { e with rrpv := 0 } }, e)
  | none =>
    let s := s.evictL2 die
    let e : L2Line := { bytes := s.devLine line, rrpv := rd }
    ({ s with l2 := tset s.l2 (die, line) e }, e)

/-- R168: what D0 holds of host lines is written to the host. -/
def State.flushHost (s : State) (keep : Nat → Bool) : State :=
  let out := s.d0held.filter fun x => !keep x.1
  let s := { s with d0held := s.d0held.filter fun x => keep x.1 }
  out.foldl (fun s x => x.2.foldl (fun s b => s.wrByte (128 * x.1 + b.1) b.2) s) s

/-- R165: a wave, or with none its cluster group, has read or written these bytes at the device's present place in coherence
order; kept while its core or the L2 of its die has an update of them to apply. -/
def State.raiseFloor (s : State) (cid : CoreId) (id : WaveId) (whole : Bool) (pas : List Nat) : State :=
  let k := s.core cid
  let on := k.updq ++ s.l2Pend cid.die
  let pend := pas.filter fun pa => on.any fun u => u.line == pa / 128 && (cget u.bytes (pa % 128)).isSome
  if pend.isEmpty then s
  else
    let g := s.groupOf id.grid id.block
    let w := if whole then none else some (id.block, id.wave)
    let old : Floor → Bool := fun f => f.grid == id.grid && f.group == g && f.wave == w && pend.contains f.pa
    let new := pend.map fun pa => ({ grid := id.grid, group := g, wave := w, pa := pa, seq := s.seq } : Floor)
    s.modCore cid fun k => { k with floors := k.floors.filter (fun f => !old f) ++ new }
/-- Places that no update on its way to a core or to the L2 of its die bears on are forgotten. -/
def State.pruneFloors (s : State) (cid : CoreId) : State :=
  let l2 := s.l2Pend cid.die
  let bears : Core → Floor → Bool := fun k f =>
    (k.updq ++ l2).any fun u => u.line == f.pa / 128 && decide (u.seq ≤ f.seq) && (cget u.bytes (f.pa % 128)).isSome
  s.modCore cid fun k => { k with floors := k.floors.filter (bears k) }

/-- A core without the entry of a line, and without what was on its way to it. -/
def Core.dropLine (k : Core) (line : Nat) : Core :=
  { k with store := tdel k.store line, updq := k.updq.filter fun u => u.line != line }
/-- R137: a recall of a line at a core, in one step. -/
def State.recall (s : State) (cid : CoreId) (line : Nat) : State :=
  if (tget (s.core cid).store line).isSome then
    let s := s.modCore cid fun k => k.dropLine line
    { s with waves := s.waves.map fun x =>
        if x.2.resident && x.2.core == cid then
          (x.1, { x.2 with wins := x.2.wins.map fun b =>
            if b.2.st == .bound && b.2.line == line then (b.1, { b.2 with st := .recalled, line := 0 }) else b })
        else x }
  else s
/-- R142-R144: an update applied to a core's entry. -/
def Core.apply (k : Core) (u : Update) : Core :=
  { k with
    store := match tget k.store u.line with
      | some e => tset k.store u.line { e with bytes := putBytes e.bytes u.bytes }
      | none => k.store
    updq := k.updq.filter fun x => x.seq != u.seq }
/-- R142-R144: the first thing on its way from a home is applied at a core, and at the L2 of its die with what came before it. -/
def State.applyUpdate (s : State) (cid : CoreId) (home : Nat) : State :=
  match (s.core cid).updq.find? fun u => u.home == home with
  | none => s
  | some u =>
    let s := s.settleL2 cid.die fun x => x.home == home && decide (x.seq ≤ u.seq)
    (if u.drop then (s.recall cid u.line).modCore cid fun k => { k with updq := k.updq.filter fun x => x.seq != u.seq }
     else s.modCore cid fun k => k.apply u).pruneFloors cid
/-- R144: a home's recall of a line at a core, behind what the core has still to apply of that home. -/
def State.homeRecall (s : State) (cid : CoreId) (line : Nat) : State :=
  if (tget (s.core cid).store line).isSome then
    let home := (homeOf (128 * line)).getD 0
    (((s.core cid).updq.filter fun u => u.home == home).foldl (fun s _ => s.applyUpdate cid home) s).recall cid line
  else s
/-- R136: every copy of a line is recalled. -/
def State.recallAll (s : State) (line : Nat) : State :=
  let s := (s.cores.map Prod.fst).foldl (fun s c => s.homeRecall c line) s
  { s with l2 := s.l2.filter fun x => x.1.2 != line }
/-- R136, R142: an engine's recall of a line, ordered by its home: each core's entry goes, once what the home ordered before has been applied
there (R144), in one step, so that no core holds a line that an engine owns; and the copies in the L2s of other dies go when it reaches them. -/
def State.engineRecall (s : State) (line : Nat) : State :=
  let n := s.seq + 1
  (s.cores.map Prod.fst).foldl (fun s c => s.homeRecall c line)
    { s.meetL2 { seq := n, home := (homeOf (128 * line)).getD 0, line := line, bytes := [], drop := true } with seq := n }
/-- R127, R142: an engine owns a line exclusively for an operation, and every copy is recalled. Where several operations write to the line each
one's ownership lasts until its own end. -/
def State.own (s : State) (op line : Nat) : State :=
  { s.engineRecall line with owned := if s.owned.contains (line, op) then s.owned else s.owned ++ [(line, op)] }
/-- DEVICE_UPDATE_APPLY (R142-R144, R388). -/
def execDeviceUpdateApply (core : CoreId) (home : Nat) (s : State) : Host.Outcome State Fault Refusal :=
  .next (match tget s.cores core with | some _ => s.applyUpdate core home | none => s)
/-- R99, R183: a core as a block is admitted to it: everything ordered so far has been applied at it and at the L2 of its die, and its fetch
buffers are empty. -/
def State.renewCore (s : State) (cid : CoreId) : State :=
  let homes := (s.core cid).updq.map Update.home
  (homes.foldl (fun s h => s.applyUpdate cid h) (s.settleL2 cid.die fun _ => true)).modCore cid fun k => { k with fetch := [], floors := [] }
/-- LINE_RECALL (R136, R137): an uncorrectable error or a rebuilt directory entry takes a line from a core. -/
def execLineRecall (core : CoreId) (line : Nat) (s : State) : Host.Outcome State Fault Refusal :=
  .next (match tget s.cores core with | some _ => s.recall core line | none => s)

/-- R158, R168: an unpinned entry of host memory that an ACQUIRE.SYSTEM found pinned is no hit. -/
def State.freshen (s : State) (cid : CoreId) (line : Nat) : State :=
  match tget (s.core cid).store line with
  | some e => if e.stale && !s.pinned cid line then s.modCore cid fun k => k.dropLine line else s
  | none => s
/-- R8, R124: a victim among the unpinned lines: those of RRPV 3, once every unpinned RRPV has been raised until one has it. Which of equals
is open: the event's, else a free one (log entry 27). -/
def State.evict (s : State) (cid : CoreId) (victim : Option Nat) : State :=
  let k := s.core cid
  if k.store.length < k.lines then s
  else
    let free := k.store.filter fun x => !s.pinned cid x.1
    let up := 3 - free.foldl (fun m x => max m x.2.rrpv) 0
    let raised := k.store.map fun x => if s.pinned cid x.1 then x else (x.1, { x.2 with rrpv := x.2.rrpv + up })
    let top := ((raised.filter fun x => !s.pinned cid x.1 && x.2.rrpv == 3).map Prod.fst)
    let free := top[(Config.freeWord s.fresh 5).toNat % top.length]?
    let v := match victim with
      | some l => if top.contains l then some l else free
      | none => free
    match v with
    | some l => ({ s with fresh := s.fresh + 1 } : State).modCore cid fun k => ({ k with store := raised } : Core).dropLine l
    | none => s
/-- R124, R142, R144, R168: a line fetched into a core's line store through the L2 of its die, with what is on its way to that copy. A hit
sets its RRPV to 0. -/
def State.fill (s : State) (cid : CoreId) (line rd : Nat) (victim : Option Nat) : State :=
  match tget (s.core cid).store line with
  | some e => s.modCore cid fun k => { k with store := tset k.store line { e with rrpv := 0 } }
  | none =>
    let r := (s.evict cid victim).viaL2 cid.die line rd
    r.1.modCore cid fun k =>
      { k with store := tset k.store line ({ bytes := r.2.bytes, rrpv := rd } : LineEntry)
               updq := sortBy (fun a b => decide (a.seq ≤ b.seq)) (k.updq ++ r.2.pend) }

/-! Accesses through a window (R129, R130). -/

/-- R130: the checks of an access in its selected lanes: each lane with its offset, the access size, whether it writes and the field
that names the window. -/
def Ctx.winTrap (c : Ctx) (n : Nat) (offs : List (Nat × Nat)) (size : Nat) (wr : Bool) : Option Eff :=
  let of : (Binding → Nat → Bool) → Lanes := fun p =>
    maskOf ((offs.filter fun x => p (c.w.bind x.1 n) x.2).map Prod.fst)
  let base : Binding → Nat := fun b => b.addr.toNat % 128
  let m1 := of fun b _ => b.st == .unbound
  let m2 := of fun b _ => b.st == .recalled
  let m3 := of fun b o => 127 < o || 128 < base b + o + size || (base b + o) % size != 0
  let m4 := of fun b _ => wr && !b.write
  if m1 != 0 then some (.trap .windowClosed 0 .a m1 0)
  else if m2 != 0 then some (.trap .windowRecalled 0 .a m2 0)
  else if m3 != 0 then
    let l := (lowest m3).getD 0
    let o := ((offs.find? fun x => x.1 == l).map Prod.snd).getD 0
    some (.trap .misalign 0 .a m3 ((c.w.bind l n).addr + BitVec.ofNat 64 o))
  else if m4 != 0 then some (.trap .xlate 0 .a m4 0)
  else none

/-- The place of a lane's access: lane, virtual address, physical address. -/
def Ctx.place (c : Ctx) (n l off : Nat) : LaneAcc :=
  let b := c.w.bind l n
  { lane := l, va := b.addr.toNat + off, pa := 128 * b.line + b.addr.toNat % 128 + off }

end Sys2Proof.Machine
end

