-- ==== Sys2Proof/Machine/Context.lean ====
section
/-! DEFINITION. Register reservations (05 R112, R114), context images and their pages (17 R268-R270). -/

namespace Sys2Proof.Machine

/-! Register reservations. -/

/-- R112: the register lines of a wave of width `w` with `v` vector and `k` scalar registers. -/
def regLines (w v k : Nat) : Nat := (v * w * 4 + 127) / 128 + (k * 4 + 127) / 128
/-- The reservation of a wave. -/
def Wave.reserve (w : Wave) : Nat := regLines w.width w.valloc w.salloc
/-- R112: the free lines of a core's register carve. -/
def State.regFree (s : State) (cid : CoreId) : Nat :=
  2048 * (s.core cid).rcache - (((s.wavesOn cid).filter fun x => !x.2.evicted).map fun x => x.2.reserve).sum

/-! Lines of the register cache (R113). -/

/-- The register lines of a wave. -/
def Wave.regLineSet (w : Wave) : List Nat :=
  (List.range ((w.salloc + 31) / 32)).map id ++ (List.range ((w.valloc * w.width + 31) / 32)).map fun k => 4 + k
/-- The 32-bit words of a register line: register and lane of each, and its place in the image; scalars have lane 0. -/
def Wave.lineRegs (w : Wave) (line : Nat) : List (RReg × Nat × Nat) :=
  if line < 4 then ((List.range 32).filter fun k => decide (32 * line + k < w.salloc)).map fun k =>
    (.s (32 * line + k), 0, 0x1000 + 4 * (32 * line + k))
  else ((List.range 32).filter fun k => decide (32 * (line - 4) + k < w.valloc * w.width)).map fun k =>
    let i := 32 * (line - 4) + k
    (.v (i / w.width), i % w.width, vregOff w.width (i / w.width) (i % w.width))
/-- The register lines of a wave that the cache holds. -/
def Wave.cached (w : Wave) : List Nat := w.regLineSet.filter fun l => !w.away.contains l
/-- R113: a line leaves the cache, and is written back to the image if it has been written (log entry 87). -/
def State.evictLine (s : State) (id : WaveId) (line : Nat) : State :=
  match s.wave id with
  | none => s
  | some w =>
    let s := if w.clean.contains line then s else (w.lineRegs line).foldl (fun s r => s.imageReg id w r.1 r.2.1) s
    s.setWave id { w with away := addNew w.away line, clean := w.soil line }
/-- Every line of a wave leaves the cache. -/
def State.evictWave (s : State) (id : WaveId) : State :=
  (((s.wave id).map Wave.cached).getD []).foldl (fun s l => s.evictLine id l) s
/-- R105, R274, R275: the register caches of some cores are emptied of the lines of waves no longer resident. -/
def State.emptyCaches (s : State) (on : CoreId → Bool) : State :=
  ((s.waves.filter fun x => on x.2.core && !x.2.resident).map Prod.fst).foldl State.evictWave s
/-- R113: lines evicted while a core's register cache lacks room: of waves no longer resident first, then of register-evicted ones; which of
each is open (R8, log entry 87). -/
def State.evictLines (s : State) (cid : CoreId) : Nat → State
  | 0 => s
  | n + 1 =>
    let ws := s.waves.filter fun x => x.2.core == cid
    if (ws.map fun x => x.2.reserve - x.2.away.length).sum ≤ 2048 * (s.core cid).rcache then s
    else
      let lines : (Wave → Bool) → List (WaveId × Nat) := fun p => (ws.filter fun x => p x.2).flatMap fun x => x.2.cached.map fun l => (x.1, l)
      let gone := lines fun w => !w.resident
      let l := if gone.isEmpty then lines Wave.evicted else gone
      match l[(Config.freeWord s.fresh 4).toNat % l.length]? with
      | some x => ({ s.evictLine x.1 x.2 with fresh := s.fresh + 1 } : State).evictLines cid n
      | none => s
/-- R113: a core's register cache makes room for the lines of the waves that hold reservations. -/
def State.makeRoom (s : State) (cid : CoreId) : State :=
  s.evictLines cid ((s.waves.filter fun x => x.2.core == cid).map fun x => x.2.reserve).sum

/-! Context pages. -/

/-- Whole 4 KiB pages. -/
def pagesOf (bytes : Nat) : Nat := (bytes + 4095) / 4096
/-- R268: the bytes of a wave image. -/
def waveImageBytes (w v : Nat) : Nat := 8192 + 128 * w + 4 * w * v
/-- R268: the bytes of a wave image at admission. -/
def Record.waveBytes (r : Record) : Nat := waveImageBytes r.width r.vregs
/-- R269: the bytes of a block image. -/
def Record.blockBytes (r : Record) : Nat := 4096 + 8192 * r.share * r.cores
/-- The first place in a context area, at a multiple of `unit`, where `n` bytes are free (log entry 13). -/
def Grid.fit (g : Grid) (n unit : Nat) : Option Nat :=
  (ascending (0 :: g.ctx.map fun e => (e.1 + e.2 + unit - 1) / unit * unit)).find? fun p =>
    decide (p + n ≤ 4096 * g.rec_.ctxLen) && g.ctx.all fun e => decide (e.1 + e.2 ≤ p ∨ p + n ≤ e.1)
/-- Bytes taken from a context area. -/
def Grid.take (g : Grid) (n unit : Nat) : Option (Nat × Grid) :=
  (g.fit n unit).map fun p => (p, { g with ctx := g.ctx ++ [(p, n)] })
/-- What starts at an offset returned to a context area. -/
def Grid.give (g : Grid) (off : Nat) : Grid := { g with ctx := g.ctx.filter fun e => e.1 != off }
/-- A page returned to a context area. -/
def Grid.givePage (g : Grid) (p : Nat) : Grid := g.give (4096 * p)
/-- `n` single pages taken from a grid's context area, or none; a page is named by its number in the area. -/
def State.takePages (s : State) (gid : Nat) : Nat → Option (List Nat × State)
  | 0 => some ([], s)
  | n + 1 =>
    match (s.grid gid).bind fun g => g.take 4096 4096 with
    | none => none
    | some (p, g) => ({ s with grids := tset s.grids gid g }.takePages gid n).map fun (r : List Nat × State) => (p / 4096 :: r.1, r.2)
/-- Pages returned to a grid's context area. -/
def State.givePages (s : State) (gid : Nat) (ps : List Nat) : State :=
  s.modGrid gid fun g => ps.foldl Grid.givePage g
/-- R268, R269: the entries of a page list that change, written where the list stands. -/
def State.writeList (s : State) (space base va : Nat) (old new : List Nat) : State :=
  (List.range (max old.length new.length)).foldl (fun s i =>
    if old[i]? = new[i]? then s
    else s.imageWrite space (va + 8 * i) (leBytes 8 (match new[i]? with | some p => base + 4096 * p | none => 0))) s
/-- R268, R270: the pages of a wave's image, spills' and added registers', recorded in its page list. -/
def State.putWavePages (s : State) (id : WaveId) (ps gs : List Nat) : State :=
  match s.wave id, s.grid id.grid with
  | some w, some g => (s.writeList (s.spaceOf id.grid) g.rec_.ctxBase (w.image + 0x1200) (w.pages ++ w.gpages) (ps ++ gs)).modWave id fun w =>
      { w with pages := ps, gpages := gs }
  | _, _ => s
/-- R269, R270: the pages of a block's image recorded in its page list. -/
def State.putBlockPages (s : State) (g b : Nat) (ps : List Nat) : State :=
  match s.block g b, s.grid g with
  | some k, some x => (s.writeList (s.spaceOf g) x.rec_.ctxBase (k.image + 0x400) k.pages ps).modBlock g b fun k => { k with pages := ps }
  | _, _ => s

/-! Spills (R152, R160, R270). -/

/-- The deltas that a commit area holds, and those that a context page holds (log entry 13). -/
def areaDeltas : Nat := 2048
/-- The deltas that a context page holds. -/
def pageDeltas : Nat := 32
/-- R151: the lowest-numbered block of a block's cluster group, in whose image the group's buffer spills. -/
def State.lowBlock (s : State) (g b : Nat) : Nat :=
  ((((s.grid g).map fun x => x.rec_.groupBlocks (s.groupOf g b)).getD []).find? fun k => (s.block g k).isSome).getD b
/-- R151: the deltas that spill in a block's image: its buffer's, and in the lowest block of a cluster group those of the group's. -/
def State.blockDeltas (s : State) (g b : Nat) : Nat :=
  ((s.block g b).map fun k => k.buf.length).getD 0 +
    (if s.lowBlock g b = b then ((s.group g (s.groupOf g b)).map fun x => x.buf.length).getD 0 else 0)
/-- R151: the home core of a block. -/
def Block.home (k : Block) : CoreId := ⟨k.die, k.base⟩
/-- The blocks that stand on their cores. -/
def State.blocksUp (s : State) : List ((Nat × Nat) × Block) :=
  s.blocks.filter fun b => ((s.group b.1.1 (s.groupOf b.1.1 b.1.2)).map Group.resident).getD false
/-- R151: the blocks whose home core a core is. -/
def State.blocksAt (s : State) (cid : CoreId) : List (Nat × Nat) := (s.blocksUp.filter fun b => b.2.home == cid).map Prod.fst
/-- R152, R160: the deltas and records that spill in a wave's image. -/
def State.waveDeltas (s : State) (id : WaveId) (w : Wave) : Nat :=
  w.wbuf.length + (s.snaps id).length + (((s.block id.grid id.block).map Block.reds).getD [] |>.filter fun r => r.wave == id.wave).length
/-- R151, R160: the deltas and reduction records of a core's commit area: its waves', and the buffers of the blocks and groups whose home it
is. -/
def State.areaUse (s : State) (cid : CoreId) : Nat :=
  ((s.wavesOn cid).map fun x => x.2.wbuf.length + (s.snaps x.1).length).sum
    + (s.blocksUp.map fun b => (b.2.reds.filter fun r => decide (cid = ⟨b.2.die, b.2.base + r.wave % b.2.ncores⟩)).length).sum
    + ((s.blocksAt cid).map fun b => s.blockDeltas b.1 b.2).sum
/-- R270: the spill pages that the images of a core's waves, and of the blocks whose home it is, hold. -/
def State.spillPages (s : State) (cid : CoreId) : Nat :=
  ((s.wavesOn cid).map fun x => x.2.pages.length).sum +
    ((s.blocksAt cid).map fun b => ((s.block b.1 b.2).map fun k => k.pages.length).getD 0).sum
/-- R225, R270: the pages that what a hearth saved of a wave takes: 16 for a tile, one for an operation (log entry 13). -/
def State.savedPages (s : State) (id : WaveId) : Nat :=
  16 * (s.savedTiles.filter fun t => t.1 == id).length + (s.suspended.filter fun t => t.1 == id).length
/-- R225, R270: the pages that a core's commit area has spilled into, with those of what was saved of halted waves on it. -/
def State.pageNeed (s : State) (cid : CoreId) : Nat :=
  (s.areaUse cid - areaDeltas + pageDeltas - 1) / pageDeltas + ((s.wavesOn cid).map fun w => s.savedPages w.1).sum
/-- R270: the pages that a core's commit area lacks. -/
def State.spillLack (s : State) (cid : CoreId) : Nat := s.pageNeed cid - s.spillPages cid
/-- R270: the pages that what a wave spills and what was saved of it lack. The deltas of a wave that stays on its core do not spill. -/
def State.savedLack (s : State) (id : WaveId) (w : Wave) (gone : Bool) : Nat :=
  (if gone then pagesOf (128 * s.waveDeltas id w) else 0) + s.savedPages id - w.pages.length
/-- R270: the pages that what a block spills lacks. -/
def State.blockLack (s : State) (g b : Nat) : Nat :=
  pagesOf (128 * s.blockDeltas g b) - ((s.block g b).map fun k => k.pages.length).getD 0
/-- R262, R270: a wave parks for want of a context page, and a CONTEXT_LOW record is sent. A debugger's halt pauses the count. -/
def State.parkSpill (s : State) (id : WaveId) (w : Wave) : State :=
  let s := s.modWave id fun w => { w with ctxPark := some (w.ctxPark.getD (if w.dbg then 0 else s.clkOf id)) }
  if w.ctxPark.isSome then s
  else s.sendRecord (some id.grid) { w.mkRecord id 0 .soft with type := 0x2A, handler := w.inHandler }
/-- R268, R270: pages taken for a wave's image, if its page list and the context area have room. -/
def State.wavePages (s : State) (id : WaveId) (w : Wave) (n : Nat) : Option State :=
  if w.pages.length + w.gpages.length + n ≤ 448 then
    (s.takePages id.grid n).map fun r => r.2.putWavePages id (w.pages ++ r.1) w.gpages
  else none
/-- R269, R270: pages taken for a block's image, if its page list and the context area have room. -/
def State.blockPages (s : State) (g b n : Nat) : Option State :=
  match s.block g b with
  | some k =>
    if k.pages.length + n ≤ 384 then
      (s.takePages g n).map fun r => r.2.putBlockPages g b (k.pages ++ r.1)
    else none
  | none => none
/-- R151, R270: an image takes those of the pages a core lacks that its own spills may need. -/
def State.takeLack (s : State) (cid : CoreId) : WaveId ⊕ (Nat × Nat) → Option State
  | .inl id => match s.wave id with
    | some w => s.wavePages id w (min (s.spillLack cid) (s.savedLack id w true))
    | none => some s
  | .inr b => s.blockPages b.1 b.2 (min (s.spillLack cid) (s.blockLack b.1 b.2))
/-- The images that spill on a core: a wave's of it first, then those of the blocks whose home it is, then its waves' (log entry 13). -/
def State.spillOwners (s : State) (cid : CoreId) (id : WaveId) : List (WaveId ⊕ (Nat × Nat)) :=
  let ws := (s.wavesOn cid).map Prod.fst
  (if ws.contains id then [.inl id] else []) ++ (s.blocksAt cid).map .inr ++ ws.map .inl
/-- R151: the cores in whose commit areas a wave's stores and moves may come to stand: its own, its block's home and its group's. -/
def State.spillCores (s : State) (id : WaveId) (w : Wave) : List CoreId :=
  distinct (w.core :: [id.block, s.lowBlock id.grid id.block].filterMap fun b => (s.block id.grid b).map Block.home)
/-- R151, R152, R160, R270: what a wave has added to the buffers of these cores spills: the pages that they lack go to the page lists of the owning
images. Where none is free or a list is full, the wave parks. -/
def State.spill (s : State) (id : WaveId) : State :=
  match s.wave id with
  | none => s
  | some w =>
    let cs := s.spillCores id w
    if cs.all fun c => s.spillLack c == 0 then s
    else match stepsM (fun s c => stepsM (fun s o => s.takeLack c o) (s.spillOwners c id) s) cs s with
      | some s => s.modWave id fun w => { w with ctxPark := none }
      | none => s.parkSpill id w
/-- R225, R270: the pages that a wave's spill takes on pre-emption or a debugger's halt; for want of one it parks. -/
def State.spillSaved (s : State) (id : WaveId) (gone : Bool) : State :=
  match s.wave id with
  | none => s
  | some w =>
    match s.wavePages id w (s.savedLack id w gone) with
    | some s => s.modWave id fun w => { w with ctxPark := none }
    | none => s.parkSpill id w
/-- R108, R151, R170, R270: the pages that a block's spilled buffers take on pre-emption; for want of one the block's waves park. -/
def State.spillBlock (s : State) (g b : Nat) : State :=
  match s.blockPages g b (s.blockLack g b) with
  | some s => s
  | none => (s.wavesOf g b).foldl (fun s id => match s.wave id with | some w => s.parkSpill id w | none => s) s
/-- R268: the 64-bit entries of a wave image's page list. -/
def Wave.pageList (w : Wave) (base : Nat) : List Byte :=
  (List.range 448).flatMap fun i => leBytes 8 (match (w.pages ++ w.gpages)[i]? with | some p => base + 4096 * p | none => 0)
/-- R269: the 64-bit entries of a block image's page list. -/
def Block.pageList (k : Block) (base : Nat) : List Byte :=
  (List.range 384).flatMap fun i => leBytes 8 (match k.pages[i]? with | some p => base + 4096 * p | none => 0)
/-- R270: the spills of a pre-empted wave and of its block, tried again. -/
def State.spillAgain (s : State) (id : WaveId) : State :=
  let t := s.spillBlock id.grid id.block
  if t.blockLack id.grid id.block = 0 then t.spillSaved id true else t
/-- The last `n` pages of a wave's spills go back. -/
def State.trimWave (s : State) (id : WaveId) (w : Wave) (n : Nat) : State :=
  if min n w.pages.length = 0 then s
  else (s.givePages id.grid (w.pages.drop (w.pages.length - n))).putWavePages id (w.pages.take (w.pages.length - n)) w.gpages
/-- The last `n` pages of a block's spills go back. -/
def State.trimBlock (s : State) (g b n : Nat) : State :=
  match s.block g b with
  | some k => if min n k.pages.length = 0 then s
    else (s.givePages g (k.pages.drop (k.pages.length - n))).putBlockPages g b (k.pages.take (k.pages.length - n))
  | none => s
/-- R270: pages that a core no longer needs go back, at most `over` of each image: of its waves' first, then of the blocks' whose home it
is. -/
def State.trimOver (s : State) (cid : CoreId) (wave : WaveId → Wave → Nat) (block : Nat × Nat → Nat) : State :=
  let need := s.pageNeed cid
  let s := (s.wavesOn cid).foldl (fun s x => s.trimWave x.1 x.2 (min (s.spillPages cid - need) (wave x.1 x.2))) s
  (s.blocksAt cid).foldl (fun s b => s.trimBlock b.1 b.2 (min (s.spillPages cid - need) (block b))) s
/-- R270: pages that have emptied go back: first those beyond what their images' own spills may need, then any. -/
def State.trimSpill (s : State) (cid : CoreId) : State :=
  let len : Nat × Nat → Nat := fun b => ((s.block b.1 b.2).map fun k => k.pages.length).getD 0
  (s.trimOver cid (fun id w => w.pages.length - pagesOf (128 * s.waveDeltas id w) - s.savedPages id)
    fun b => len b - pagesOf (128 * s.blockDeltas b.1 b.2)).trimOver cid (fun _ w => w.pages.length) len

/-- R151, R270: what a completion of a wave has added to the buffers spills, on its cores, or in the images of a pre-empted group. -/
def State.spillAfter (s : State) (o : WaveId) : State :=
  if ((s.group o.grid (s.groupOf o.grid o.block)).map Group.resident).getD false then s.spill o
  else (s.spillBlock o.grid o.block).spillBlock o.grid (s.lowBlock o.grid o.block)
/-- R151, R152, R270: once a COMMIT has moved deltas into another buffer, the pages that its wave's and its block's images no longer need go
back, and what still spills takes its pages in the image that owns the buffer. -/
def State.respill (s : State) (o : WaveId) (core : CoreId) (level : Nat) : State :=
  let g := o.grid
  let s := match s.wave o with
    | some w => s.trimWave o w (w.pages.length - pagesOf (128 * s.waveDeltas o w) - s.savedPages o)
    | none => s
  let s := if 2 ≤ level then
      s.trimBlock g o.block ((((s.block g o.block).map fun k => k.pages.length).getD 0) - pagesOf (128 * s.blockDeltas g o.block))
    else s
  (s.spillAfter o).trimSpill core

/-- CONTEXT_PAGE_FREED (R270): a page has come free, and the wave's spill takes it. -/
def execContextPageFreed (w : WaveId) (s : State) : Host.Outcome State Fault Refusal :=
  .next (match s.wave w with
    | some x => if x.ctxPark.isSome then
        (if !x.resident then s.spillAgain w
         else if x.dbg then s.spillSaved w false
         else if (s.spillCores w x).all fun c => s.spillLack c == 0 then s.modWave w fun w => { w with ctxPark := none } else s.spill w) else s
    | none => s)
/-- CONTEXT_PAGE_TIMEOUT (R270): no page has come free within 2^31 clocks, the last of which ends, and the wave halts; one that HALT or DOUBLE has halted before stays
so, in the mode it stopped in. -/
def execContextPageTimeout (w : WaveId) (s : State) : Host.Outcome State Fault Refusal :=
  .next (match s.wave w with
    | some x => match x.ctxPark with
      | some t =>
        if !x.dbg && s.endsOf w && decide (t + 2 ^ 31 ≤ s.clkOf w) then
          let p := (x.nextPath).getD (0, false)
          let t := s.haltWave w { x with ctxPark := none } p.1 p.2
            { x.mkRecord w p.1 .soft with type := 0x29, sub := 0, pc := (x.pathAt p.1 p.2 x.inHandler).pc }
          match x.mode with
          | .halted .. => t.modWave w fun y => { y with mode := x.mode }
          | _ => t
        else s
      | none => s
    | none => s)

end Sys2Proof.Machine
end

