-- ==== Sys2Proof/Machine/Control.lean ====
section
/-! DEFINITION. The control class: branches, divergence and reconvergence, EXIT, SLEEP, ELECT and VOTE (02 R29-R36; 19 R298-R302;
20 R311, R312, R325; 21 R342, R352; 22 R363, R375, R384), and the expiries of yields and sleeps. -/

namespace Sys2Proof.Machine

/-- NOP (R342). -/
def execNop (h : Hdr) (s : State) : Host.Outcome State Fault Refusal := issue (.nop h) s fun _ s => .ok s

/-- YIELD (R384): its yield is `yields`. -/
def execYield (h : Hdr) (s : State) : Host.Outcome State Fault Refusal := issue (.yield h) s fun _ s => .ok s

/-- R73: control goes to a PC, or the instruction traps MISALIGN with it as the address. -/
def goOrTrap (c : Ctx) (s : State) (pc : PC) : Eff :=
  if pcOk pc then .goto pc s else .trap .misalign 0 .none c.mask pc

/-- R299, R301, R352: a uniform branch: `taken` where the guard holds in every active lane, the next instruction where it
holds in none, else ILLEGAL, OPERAND_RANGE with the taken lanes. -/
def uniform (c : Ctx) (s : State) (taken : Eff) : Eff :=
  if c.sel = c.mask then taken else if c.sel = 0 then .ok s else .trap .illegal 9 .none c.sel 0

/-- BRA without a hint (R299). -/
def execBra (h : Hdr) (disp : BitVec 30) (s : State) : Host.Outcome State Fault Refusal :=
  issue (.bra h disp) s fun c s => uniform c s (goOrTrap c s (dispPc c.pc disp))

/-- R32: the entries that a serialised divergence pushes, the last one on top. -/
def divergePushes (x : Split) (second : Bool) (next join : PC) (taken other : Lanes) : List StackEntry :=
  (match x.p2 with
    | some p2 =>
      let o := if second then x.p1 else p2
      [⟨.reconverge, x.dualJoin, x.p1.mask ||| p2.mask, 0, none, 0, none⟩,
        ⟨.pending, o.pc, o.mask, x.dualJoin, o.wait, o.readyAt, o.yieldAt⟩]
    | none => []) ++ [⟨.reconverge, join, taken ||| other, 0, none, 0, none⟩, ⟨.pending, next, other, join, none, 0, none⟩]

/-- R35, R88: a scalar result whose path is no path of the wave any more: no path writes or checks it as its own. -/
def FixedWrite.orphan (f : FixedWrite) : FixedWrite := if f.reg.isS then { f with split := 4 } else f
/-- R88: the results of a split that becomes FREE are those of no split that may take its entry. -/
def Wave.freeLats (w : Wave) (k : Nat) : Wave := { w with lats := w.lats.map fun f => if f.split = k then { f with split := 4 } else f }
/-- R32, R88: the results of a dual split of which one path, the second or the first, goes on as its only one and the other is pushed: those
of the pushed path go with its entry. -/
def Wave.pushLats (w : Wave) (k : Nat) (second : Bool) (place : Nat) : Wave :=
  { w with lats := w.lats.map fun f =>
      if f.split = k ∧ f.hand = false ∧ f.place = none then { f with second := false, place := if f.second = second then none else some place }
      else f }
/-- R33, R88: the results of a split whose stack is popped down to `n` entries: those of the path that the entry on top held are its own
again. -/
def Wave.popLats (w : Wave) (k n : Nat) : Wave :=
  { w with lats := w.lats.map fun f => match f.place with
      | some d => if f.split = k ∧ n ≤ d then (if d = n then { f with place := none } else { f with split := 4 }) else f
      | none => f }
/-- R88: the results of a split of which one path, the second or the first, goes on as its only one. -/
def Wave.soleLats (w : Wave) (k : Nat) (second : Bool) : Wave :=
  { w with lats := w.lats.map fun f =>
      if f.split = k ∧ f.hand = false ∧ f.place = none then { (if f.second = second then f else f.orphan) with second := false } else f }

/-- R32: a serialised divergence, or STACK where it would pass 32 entries. The executing path becomes the split's only one. -/
def serialise (i : Instr) (c : Ctx) (s : State) (target join : PC) : Eff :=
  let other := c.mask &&& ~~~c.sel
  let x := c.w.split c.split
  let ps := divergePushes x c.second (nextPc c.pc) join c.sel other
  if 32 < x.stack.length + ps.length then .trap .stack 0 .none c.mask 0
  else
    let s := s.modWave c.id fun w => (if x.p2.isSome then w.pushLats c.split c.second (x.stack.length + 1) else w).modSplit c.split fun x =>
      { x with stack := ps.reverse ++ x.stack, p1 := { x.path c.second with mask := c.sel }, p2 := none, dualJoin := 0 }
    .raw ((s.markIssue c).advance i { c with second := false } target)

/-- R30, R31: a divergent branch with both sides present; `diverge` is what it does where the split has no live second path. -/
def divergent (i : Instr) (c : Ctx) (s : State) (target join : PC) (diverge : Option Eff) : Eff :=
  if c.sel = 0 then .ok s
  else if !pcOk target then .trap .misalign 0 .none c.mask target
  else if c.sel = c.mask then .goto target s
  else match diverge with
    | some e => e
    | none => serialise i c s target join

/-- BRA.DUAL (R30). Both paths keep the spacing of the branch. -/
def execBraDual (h : Hdr) (disp : BitVec 30) (jl : BitVec 10) (js : BitVec 4) (s : State) : Host.Outcome State Fault Refusal :=
  issue (.braDual h disp jl js) s fun c s =>
    let target := dispPc c.pc disp
    let join := joinPc c.pc jl js
    divergent (.braDual h disp jl js) c s target join
      (if (c.w.split c.split).p2.isSome then none
       else
         let p2 := ({ pc := nextPc c.pc, mask := c.mask &&& ~~~c.sel } : Path).spaced c.now h h.y
         some (.goto target (s.modWave c.id fun w => w.modSplit c.split fun x =>
           { x with p1 := { x.p1 with mask := c.sel }, p2 := some p2, dualJoin := join })))

/-- The lowest FREE split entry and the lowest FREE join entry. -/
def Wave.freeSplit (w : Wave) : Option Nat := (List.range 4).find? fun k => (w.split k).st == .free
/-- The lowest FREE join entry. -/
def Wave.freeJoin (w : Wave) : Option Nat := (List.range 4).find? fun k => !(w.joins.getD k {}).used

/-- BRA.SPLIT (R31). R81 does not say from which clock the new split may issue: the model takes the next (DESIGN CHOICE, log entry 49). -/
def execBraSplit (h : Hdr) (disp : BitVec 30) (jl : BitVec 10) (js : BitVec 4) (s : State) : Host.Outcome State Fault Refusal :=
  issue (.braSplit h disp jl js) s fun c s =>
    let target := dispPc c.pc disp
    let join := joinPc c.pc jl js
    divergent (.braSplit h disp jl js) c s target join
      (match (c.w.split c.split).p2, c.w.freeSplit, c.w.freeJoin with
        | none, some k, some j =>
          some (.goto target (s.modWave c.id fun w =>
            let outer := (w.split c.split).parent
            let w := { w with joins := lmod w.joins j fun _ =>
              { used := true, joinPc := join, expected := c.mask, arrived := 0, outer := outer } }
            let w := w.modSplit c.split fun x => { x with p1 := { x.p1 with mask := c.sel }, parent := some j }
            w.modSplit k fun _ =>
              { st := .running, p1 := { pc := nextPc c.pc, mask := c.mask &&& ~~~c.sel, readyAt := c.now + 1 }, parent := some j }))
        | _, _, _ => none)

/-- BRX (R301). -/
def execBrx (h : Hdr) (a : BitVec 7) (s : State) : Host.Outcome State Fault Refusal :=
  issue (.brx h a) s fun c s => uniform c s (goOrTrap c s (c.sPair a))

/-- CALL (R302): the return PC has latency 2, and the target is read at issue. -/
def execCall (h : Hdr) (d : BitVec 7) (t : Opnd) (s : State) : Host.Outcome State Fault Refusal :=
  issue (.call h d t) s fun c s =>
    let target := match t with | .i x => dispPc c.pc x | .s r => c.sPair r | _ => 0
    uniform c s (goOrTrap c (c.fix s 2 (scaWrites d.toNat 2 (nextPc c.pc).toNat)) target)

/-- RET (R352). -/
def execRet (h : Hdr) (a : BitVec 7) (s : State) : Host.Outcome State Fault Refusal :=
  issue (.ret h a) s fun c s => uniform c s (goOrTrap c s (c.sPair a))

/-! Reconvergence. -/

/-- R33, merge (j): the lowest split parked at j takes every lane of Expected and goes on after the JOIN; the others and j
become FREE. -/
def Wave.merge (w : Wave) (j : Nat) : Wave :=
  let e := w.joins.getD j {}
  let parked := (List.range 4).filter fun k => (w.split k).st == .parkedJoin && (w.split k).parent == some j
  let w := parked.tail.foldl (fun w k => (w.freeLats k).modSplit k fun _ => {}) w
  let w := match parked.head? with
    | some k => w.modSplit k fun x =>
        { x with st := .running, parent := e.outer, p1 := { x.p1 with mask := e.expected, pc := nextPc e.joinPc } }
    | none => w
  { w with joins := lmod w.joins j fun _ => {} }

/-- R34: every join entry whose Arrived equals Expected merges at once. -/
def Wave.mergeAll (w : Wave) : Wave :=
  (List.range 4).foldl (fun w j =>
    let e := w.joins.getD j {}
    if e.used && e.arrived == e.expected then w.merge j else w) w

/-- The PC of a split's innermost join (R29). -/
def Wave.innermost (w : Wave) (k : Nat) : Option PC :=
  let x := w.split k
  match x.p2, x.stack with
  | some _, _ => some x.dualJoin
  | none, e :: _ => some (if e.kind = .pending then e.joinPc else e.pc)
  | none, [] => match x.parent with
    | some j => if (w.joins.getD j {}).used then some (w.joins.getD j {}).joinPc else none
    | none => none

/-- R33, R34: entries popped until one holds lanes that have not ended. -/
def popStack (ended : Lanes) : List StackEntry → Option StackEntry × List StackEntry
  | [] => (none, [])
  | e :: t => if e.mask &&& ~~~ended = 0 then popStack ended t else (some { e with mask := e.mask &&& ~~~ended }, t)

/-- R33, R34: the split goes on with the lanes and the wait of an entry of its stack; the spacing and the yield of the entry's own path
count beside those of the last issue (R81, R82). -/
def Path.resumeEntry (p : Path) (e : StackEntry) (pc : PC) : Path :=
  { p with mask := e.mask, wait := e.wait, pc := pc, readyAt := max p.readyAt e.readyAt, yieldAt := laterYield p.yieldAt e.yieldAt }
/-- R30: where both paths have stopped at the dual JOIN they become one, which goes on after it. -/
def Split.dualMerge (x : Split) : Split :=
  match x.p2 with
  | some p =>
    if x.p1.atJoin && p.atJoin then
      { x with p2 := none, dualJoin := 0
               p1 := { x.p1 with mask := x.p1.mask ||| p.mask, pc := nextPc x.dualJoin, atJoin := false
                                 readyAt := max x.p1.readyAt p.readyAt, yieldAt := laterYield x.p1.yieldAt p.yieldAt } }
    else x
  | none => x

/-- R33: what JOIN does to the wave, its path having moved to the next instruction. -/
def Wave.join (w : Wave) (k : Nat) (second : Bool) (pc : PC) : Wave :=
  if w.innermost k ≠ some pc then w
  else
    let x := w.split k
    match x.p2, x.stack with
    | some _, _ =>
      let w := w.modSplit k fun x => (x.modPath second fun p => { p with atJoin := true, pc := pc }).dualMerge
      if (w.split k).p2.isNone then w.soleLats k false else w
    | none, _ :: _ =>
      let r := popStack w.ended x.stack
      (w.popLats k r.2.length).modSplit k fun x => match r.1 with
        | some e => { x with stack := r.2, p1 := x.p1.resumeEntry e (if e.kind = .reconverge then nextPc pc else e.pc) }
        | none => { x with stack := r.2 }
    | none, [] => match x.parent with
      | some j =>
        let w := { w with joins := lmod w.joins j fun e => { e with arrived := e.arrived ||| x.p1.mask } }
        let w := w.modSplit k fun x => { x with st := .parkedJoin, p1 := { x.p1 with pc := pc } }
        let e := w.joins.getD j {}
        if e.arrived = e.expected then w.merge j else w
      | none => w

/-- R33, R34: the split in which the lanes of a split go on once a wave has become `v`: itself unless it has become FREE, then the one that a
JOIN has merged it into, or none, 4, where they have ended. -/
def Wave.heir (w v : Wave) (k : Nat) : Nat :=
  if decide (4 ≤ k) || (w.split k).st == .free || (v.split k).st != .free then k
  else ((List.range 4).find? fun j => (v.split j).lanes &&& (w.split k).lanes != 0).getD 4
/-- R204: a wave whose splits change, with the EXC_THRESHOLD traps due to them, and the events of this clock and the operations in flight that
may still bring one: each goes with the lanes of its split (log entry 89). -/
def State.regroup (s : State) (id : WaveId) (f : Wave → Wave) : State :=
  match s.wave id with
  | none => s
  | some w =>
    let go := w.heir (f w)
    if (List.range 4).all fun k => go k == k then s.setWave id (f w)
    else
      let op : Op → Op := fun o => if o.wave = id then { o with heir := go o.heir } else o
      let core : Core → Core := fun k => { k with evq := k.evq.map fun e => if e.wave = id then { e with heir := go e.heir } else e }
      let t := s.setWave id { f w with due := (f w).due.map fun t => if t.cause = .excThreshold then { t with split := go t.split } else t }
      { t with ops := t.ops.map op, cores := t.cores.map fun c => (c.1, core c.2) }

/-- JOIN (R33, R325): its guard is ignored. -/
def execJoin (h : Hdr) (s : State) : Host.Outcome State Fault Refusal :=
  issue (.join h) s fun c s =>
    .raw (((s.markIssue c).advance (.join h) c (nextPc c.pc)).regroup c.id fun w => w.join c.split c.second c.pc)

/-! EXIT. -/

/-- R135: the bindings of lanes become UNBOUND. -/
def Wave.unbindLanes (w : Wave) (m : Lanes) : Wave := { w with wins := w.wins.filter fun b => !m.getLsbD (b.1 / 16) }

/-- R33, R34: ended lanes are removed from a split's stack. -/
def Split.dropStack (x : Split) (m : Lanes) : Split := { x with stack := x.stack.map fun e => { e with mask := e.mask &&& ~~~m } }
/-- R34: ended lanes are removed from a split: from its paths and its stack. -/
def Split.drop (x : Split) (m : Lanes) : Split :=
  { x.dropStack m with p1 := { x.p1 with mask := x.p1.mask &&& ~~~m }, p2 := x.p2.map fun p => { p with mask := p.mask &&& ~~~m } }

/-- R34: how a split goes on whose executing path has no lanes left. -/
def Split.afterEnd (x : Split) (ended : Lanes) (second : Bool) : Split :=
  match x.p2 with
  | some p =>
    let o := if second then x.p1 else p
    let o := if o.atJoin then { o with atJoin := false, pc := nextPc x.dualJoin } else o
    { x with p1 := o, p2 := none, dualJoin := 0 }
  | none =>
    let r := popStack ended x.stack
    match r.1 with
    | some e => { x with stack := r.2, p1 := x.p1.resumeEntry e (if e.kind = .pending then e.pc else nextPc e.pc) }
    | none => {}

/-- R34: Expected of a join entry and of every outer entry without ended lanes. -/
def Wave.dropJoins (w : Wave) (m : Lanes) : Nat → Option Nat → Wave
  | 0, _ => w
  | _, none => w
  | n + 1, some j =>
    let outer := (w.joins.getD j {}).outer
    { w with joins := lmod w.joins j fun e => { e with expected := e.expected &&& ~~~m } }.dropJoins m n outer

/-- R34, R88: the results of a split whose executing path has ended. -/
def Wave.endLats (w : Wave) (k : Nat) (x : Split) (second : Bool) : Wave :=
  if x.p2.isSome then w.soleLats k !second
  else if (popStack w.ended x.stack).1.isNone then w.freeLats k else w.popLats k (popStack w.ended x.stack).2.length
/-- R34, R135, R312: lanes of the executing path end. An entry of another split's stack loses them too, as it would when it is popped
(R33). -/
def Wave.exit (w : Wave) (k : Nat) (second : Bool) (m : Lanes) : Wave :=
  let parent := (w.split k).parent
  let x := (w.split k).drop m
  let w := { w.unbindLanes m with ended := w.ended ||| m, splits := w.splits.map fun (y : Split) => y.dropStack m }
  let w := if (x.path second).mask = 0 then (w.endLats k x second).modSplit k fun _ => x.afterEnd w.ended second else w.modSplit k fun _ => x
  (w.dropJoins m 4 parent).mergeAll

/-- EXIT (R312). -/
def execExit (h : Hdr) (s : State) : Host.Outcome State Fault Refusal :=
  issue (.exit h) s fun c s =>
    if c.any then
      .raw (((s.markIssue c).advance (.exit h) c (nextPc c.pc)).regroup c.id fun w => w.exit c.split c.second c.sel)
    else .ok s

/-! SLEEP, ELECT and VOTE. -/

/-- SLEEP (R363): the path parks for the count; a count of 0 parks nothing. -/
def execSleep (h : Hdr) (n : Opnd) (s : State) : Host.Outcome State Fault Refusal :=
  issue (.sleep h n) s fun c s =>
    let k := c.rd1 n 1 immZ
    if c.any && k != 0 then
      .ok (s.modWave c.id fun w => w.modPath c.split c.second c.hand fun p => { p with wait := some (.sleep (c.now + k)) })
    else .ok s

/-- ELECT (R311). -/
def execElect (h : Hdr) (d : BitVec 3) (idx : Option (BitVec 7)) (s : State) : Host.Outcome State Fault Refusal :=
  issue (.elect h d idx) s fun c s =>
    let e := (lowest c.sel).getD 0
    if c.any then
      .ok (c.fix s 4 (predWrites d.toNat (c.lanes.map fun l => (l, l == e)) ++
        (match idx with | some a => scaWrites a.toNat 1 e | none => [])))
    else .ok s

/-- R375: what a vote finds: `t` are the selected lanes in which A is true. -/
def voteVal (mode : VoteMode) (sel t : Lanes) : Bool :=
  match mode with
  | .any => t != 0
  | .all => t == sel
  | .uni => t == 0 || t == sel
  | .ballot => true
/-- VOTE (R375). -/
def execVote (h : Hdr) (mode : VoteMode) (d : Opnd) (a : BitVec 3) (s : State) : Host.Outcome State Fault Refusal :=
  issue (.vote h mode d a) s fun c s =>
    let t := c.w.predFor c.hand a.toNat &&& c.sel
    if c.any then
      .ok (c.fix s 4 (match d with
        | .p p => predWrites p.toNat (c.lanes.map fun l => (l, voteVal mode c.sel t))
        | _ => opWrites d (if c.w.width = 64 then 2 else 1) c.lanes t.toNat))
    else .ok s

/-! Events. -/

/-- YIELD_EXPIRY (R82): 8 clocks have passed since the path's stall count ran. -/
def execYieldExpiry (p : PathId) (s : State) : Host.Outcome State Fault Refusal :=
  .next (match s.wave p.wave with
    | some w =>
      let hand := w.inHandler
      let y := (w.pathAt p.split p.second hand).yieldAt
      (match y with
        | some t => if t + 8 ≤ s.clkOf p.wave then
            s.modWave p.wave fun w => w.modPath p.split p.second hand fun p => { p with yieldAt := none } else s
        | none => s)
    | none => s)

/-- SLEEP_EXPIRY (R363): the count of a resident wave that no debugger has halted has run. -/
def execSleepExpiry (p : PathId) (s : State) : Host.Outcome State Fault Refusal :=
  .next (match s.wave p.wave with
    | some w =>
      if w.resident && !w.dbg then
        s.modWave p.wave fun w => w.endWaits fun _ x => match x with
          | .sleep t => if t ≤ s.clkOf p.wave then some [] else none
          | _ => none
      else s
    | none => s)

end Sys2Proof.Machine
end

