-- ==== Sys2Proof/Machine/Window.lean ====
section
/-! DEFINITION. OPEN, CLOSE, REOPEN and WQUERY, and the events of fetches, ATS and PRI (06 R117-R141; 07 R150; 10 R184; 19 R303;
21 R343; 22 R379). -/

namespace Sys2Proof.Machine

/-! An OPEN or REOPEN in flight. -/

/-- The OPEN or REOPEN that an operation is. -/
def Op.openOf (o : Op) : Option OpenOp := match o.kind with | .open x => some x | _ => none
/-- An OPEN or REOPEN changed. -/
def State.modOpen (s : State) (op : Nat) (f : OpenOp → OpenOp) : State :=
  s.modOp op fun o => match o.kind with | .open x => { o with kind := .open (f x) } | _ => o
/-- R126, R139: the status word: the first code that applies, and the lanes bound. -/
def OpenOp.word (o : OpenOp) : Word :=
  let code := if o.codes.contains 0x48 then 0x48 else if o.codes.contains cDATA then cDATA else if o.codes.contains cOFFLINE then cOFFLINE
    else if o.codes.contains cTIMEOUT then cTIMEOUT else if o.short.isSome then cPARTIAL else cOK
  status code (lanesOf o.bound).length
/-- The lanes of an OPEN that wait for a line. -/
def OpenOp.lanesAt (o : OpenOp) (line : Nat) : Lanes := maskOf ((o.lines.filter fun x => x.2.2 == line).map Prod.fst)
/-- A line leaves an OPEN, obtained or refused. -/
def OpenOp.drop (o : OpenOp) (line : Nat) : OpenOp :=
  { o with lines := o.lines.filter fun x => x.2.2 != line, need := o.need.filter fun l => l != line }
/-- R121, R139: a lane takes its binding. -/
def Wave.bindLane (w : Wave) (o : OpenOp) (l : Nat) (addr : DWord) (line : Nat) : Wave :=
  if o.reopen then
    let b := w.bind l o.win.toNat
    if b.st = .recalled then w.setBind l o.win.toNat { b with st := .bound, line := line } else w
  else w.setBind l o.win.toNat { st := .bound, addr := addr, line := line, write := o.write, rd := o.rd }
/-- R121: a line has been obtained: its lanes are bound. -/
def State.obtain (s : State) (id : WaveId) (op : Nat) (o : OpenOp) (line : Nat) : State :=
  (s.modWave id fun w => (o.lines.filter fun x => x.2.2 == line).foldl (fun w x => w.bindLane o x.1 x.2.1 line) w).modOpen op
    fun o => { o.drop line with bound := o.bound ||| o.lanesAt line }
/-- R126, R139: a line has been refused: its lanes stay as they are. -/
def State.refuse (s : State) (op line code : Nat) : State :=
  s.modOpen op fun o => { o.drop line with codes := addNew o.codes code }

/-- R125, R343: whether every earlier OPEN or REOPEN of the wave has charged all of its lines. -/
def State.chargeTurn (s : State) (o : Op) : Bool :=
  (s.earlier o).all fun x => match x.kind with
    | .open y => y.todo.isEmpty && y.lines.all fun l => y.need.contains l.2.2
    | _ => true
/-- R119, R124, R125: one line of an OPEN is charged; a line in the line store is obtained at once. -/
def State.chargeLine (s : State) (id : WaveId) (op : Nat) (line : Nat) : State :=
  match s.op op, s.wave id with
  | some o, some w => match o.kind with
    | .open x =>
      let barred := (match x.short with | some l => decide (l < line) | none => false) && !(s.heldLines id w).contains line
      match (if barred then none else s.charge id line) with
      | none => s.modOpen op fun x => { x.drop line with short := some (min (x.short.getD line) line) }
      | some s =>
        let s := s.freshen w.core line
        if (tget (s.core w.core).store line).isSome then (s.fill w.core line 0 none).obtain id op x line
        else s.modOpen op fun x => { x with need := addNew x.need line }
    | _ => s
  | _, _ => s
/-- R146, R282: whether a page request for a page is outstanding, or waits for one to be answered. -/
def State.priOn (s : State) (die space page : Nat) : Bool :=
  (s.die die).pri.contains (space, page) || s.priWait.contains (die, space, page)
/-- R121, R125: the lines of an OPEN not yet charged are charged in ascending order, once every lane's check has passed or failed but for those
that wait on a page request (R127), and its wave's bindings have been reopened after a resume (R343). -/
def State.chargeOpen (s : State) (op : Nat) : State :=
  match s.op op with
  | some o => match o.kind, s.wave o.wave with
    | .open x, some w =>
      if w.resident && !w.rebinding && s.chargeTurn o && x.todo.all fun y => s.priOn o.core.die o.space (y.2.toNat / 4096) then
        (ascending (distinct ((x.lines.map fun l => l.2.2).filter fun l => !x.need.contains l))).foldl
          (fun s l => s.chargeLine o.wave op l) s
      else s
    | _, _ => s
  | none => s

/-- The path that an operation holds has this PC. -/
def Wave.pcOfOp (w : Wave) (op : Nat) (pc : PC) : Wave :=
  let hit : Path → Path := fun p => if p.wait = some (.op op) then { p with pc := pc } else p
  { w with
    splits := w.splits.map fun x =>
      { x with p1 := hit x.p1, p2 := x.p2.map hit
               stack := x.stack.map fun e => if e.wait = some (.op op) then { e with pc := pc } else e }
    hand := w.hand.map fun h => { h with path := hit h.path } }
/-- The wait of the path that an operation holds becomes another, or ends. -/
def Wave.waitOfOp (w : Wave) (op : Nat) (to' : Option Wait) : Wave :=
  let hit : Path → Path := fun p => if p.wait = some (.op op) then { p with wait := to' } else p
  { w with
    splits := w.splits.map fun x =>
      { x with p1 := hit x.p1, p2 := x.p2.map hit
               stack := x.stack.map fun e => if e.wait = some (.op op) then { e with wait := to' } else e }
    hand := w.hand.map fun h => { h with path := hit h.path } }

/-- R123: the faulted lanes of an OPEN become a split in state FAULTED, or the executing path stops at the OPEN. -/
def State.openFaults (s : State) (o : Op) (fs : List (Nat × DWord)) : State :=
  match s.wave o.wave, fs with
  | some w, _ :: _ =>
    let f := maskOf (fs.map Prod.fst)
    let low := (lowest f).getD 0
    let addr := ((fs.find? fun x => x.1 == low).map Prod.snd).getD 0
    let x := w.split o.split
    match (if x.stack.isEmpty && x.p2.isNone && x.p1.mask != f then w.freeSplit else none) with
    | some k => s.setWave o.wave
        ((w.modSplit o.split fun x => { x with p1 := { x.p1 with mask := x.p1.mask &&& ~~~f } }).modSplit k fun _ =>
          { st := .faulted, p1 := { pc := o.pc, mask := f }, parent := x.parent, faultAddr := addr })
    | none => (s.setWave o.wave (w.pcOfOp o.id o.pc)).modOpen o.id fun x =>
        match x.stop with
        | none => { x with stop := some (f, addr) }
        | some (m, a) => { x with stop := some (m ||| f, if low < (lowest m).getD 0 then addr else a) }
  | _, _ => s

/-- R122, R123: once the last check of an OPEN is decided its faults take their place and fetch resumes. -/
def State.openChecked (s : State) (op : Nat) : State :=
  match s.op op with
  | some o => match o.openOf with
    | some x =>
      if x.todo.isEmpty && (!x.checked || !x.faulted.isEmpty) then
        ((s.openFaults o x.faulted).modOpen op fun x => { x with checked := true, faulted := [] }).modWave o.wave fun w =>
          if w.hold = some op then { w with hold := none } else w
      else s
    | none => s
  | none => s
/-- R121, R126, R139: once every line is obtained or refused the status and the predicate destination are written. -/
def State.openEnd (s : State) (op : Nat) : State :=
  match s.op op with
  | some o => match o.openOf with
    | some x =>
      if x.checked && x.todo.isEmpty && x.lines.isEmpty then
        (s.modWave o.wave fun w =>
          ((w.putS x.st x.word).putP x.pd ((lanesOf (x.lanes &&& w.lanes)).map fun l => (l, x.bound.getLsbD l))).waitOfOp op
            (x.stop.map fun m => .openFault m.1 m.2)).opDone op
      else s
    | none => s
  | none => s
/-- Every OPEN and REOPEN of a wave goes as far as it can: checks, charges, end. -/
def State.openSettle (s : State) (id : WaveId) : State :=
  ((s.ops.filter fun o => o.wave == id && !o.done && o.openOf.isSome).map Op.id).foldl
    (fun s op => ((s.openChecked op).chargeOpen op).openEnd op) s

/-- R121, R145, R146: the lanes of an OPEN that wait for a translation are looked up. A lane that fails faults at an OPEN and gives
NOT_TRANSLATED at a REOPEN. -/
def State.openLook (s : State) (op : Nat) : State :=
  match s.op op with
  | some o => match o.openOf with
    | some x =>
      let need : Nat → Perms → Bool := fun l =>
        if (if x.reopen then (((s.wave o.wave).map fun (w : Wave) => w.bind l x.win.toNat).getD {}).write else x.write) then needRW else needR
      let rs := x.todo.map fun y => (y, s.look o.core.die o.space y.2.toNat (need y.1))
      let ok := rs.filterMap fun r => match r.2 with | .ok pa => some (r.1.1, r.1.2, pa / 128) | _ => none
      let bad := (rs.filter fun r => r.2 == .fail).map Prod.fst
      s.modOpen op fun x =>
        { x with
          todo := (rs.filter fun r => r.2 == .wait).map Prod.fst
          lines := x.lines ++ ok
          faulted := if x.reopen then x.faulted else x.faulted ++ bad
          codes := if x.reopen && !bad.isEmpty then addNew x.codes 0x48 else x.codes }
    | none => s
  | none => s

/-- R127, R146: the limit of an OPEN or REOPEN has expired: lines that an engine owns and lanes that wait on a page request are not
obtained. -/
def State.openExpire (s : State) (op : Nat) : State :=
  match s.op op with
  | some o => match o.openOf with
    | some x =>
      let own := x.need.filter fun l => (tget s.owned l).isSome
      let pri := x.todo.filter fun y => s.priOn o.core.die o.space (y.2.toNat / 4096)
      if own.isEmpty && pri.isEmpty then s
      else
        let s := own.foldl (fun s l => s.refuse op l cTIMEOUT) s
        let s := if pri.isEmpty then s else s.modOpen op fun x =>
          { x with todo := x.todo.filter fun y => !pri.contains y, codes := addNew x.codes cTIMEOUT }
        s.openSettle o.wave
    | none => s
  | none => s

/-- R127, R138: lanes of an OPEN whose lines a shootdown took before they were bound are looked up again. -/
def State.openRelook (s : State) (op : Nat) (hit : Nat → Bool) : State :=
  (s.modOpen op fun x =>
    let l := x.lines.filter fun y => hit y.2.1.toNat
    { x with todo := x.todo ++ l.map fun y => (y.1, y.2.1), lines := x.lines.filter fun y => !hit y.2.1.toNat
             need := x.need.filter fun n => !(l.map fun y => y.2.2).contains n }).openLook op

/-! Bindings at a resume (R118, R141). -/

/-- R118, R141: one line's bindings taken up again, or RECALLED: `keys` are the bindings with the line's place, translated anew. A line that
the line store holds is found there and needs no fetch. Where the bindings hold different reuse distances a line that is fetched takes the
first one's (DESIGN CHOICE, log entry 78). -/
def State.rebindLine (s : State) (id : WaveId) (line : Nat) (keys : List Nat) : State :=
  match s.wave id with
  | none => s
  | some w =>
    let lost : State := s.modWave id fun w =>
      { w with wins := w.wins.map fun b => if keys.contains b.1 then (b.1, { b.2 with st := .recalled, line := 0 }) else b }
    let here := (tget ((s.freshen w.core line).core w.core).store line).isSome
    if !here && ((tget s.owned line).isSome || !s.lineUp line || s.lineBad w.core.die line) then lost
    else match s.charge id line with
      | none => lost
      | some s =>
        let rd := ((keys.head?.map fun k => (sget ({} : Binding) w.wins k).rd).getD 2).toNat
        ((s.freshen w.core line).fill w.core line rd none).modWave id fun w =>
          { w with wins := w.wins.map fun b => if keys.contains b.1 then (b.1, { b.2 with st := .bound, line := line }) else b }
/-- R141, R146: a binding's address translated for its reopening: one of a page that the host has refused, which needs a page request, fails. -/
def State.lookBack (s : State) (die space : Nat) (b : Binding) : Look :=
  match s.look die space b.addr.toNat (if b.write then needRW else needR) with
  | .wait => if tget (s.die die).ats (space, b.addr.toNat / 4096) = some none then .fail else .wait
  | x => x
/-- R141: the bindings that were BOUND, reopened in ascending order of their physical addresses once the host's replies to their translations
are there. -/
def State.rebind (s : State) (id : WaveId) : State :=
  match s.wave id with
  | none => s
  | some w =>
    let bs := (w.wins.filter fun b => b.2.st == .pending).map fun b => (b.1, s.lookBack w.core.die (s.spaceOf id.grid) b.2)
    if !w.resident || bs.any fun b => b.2 == .wait then s
    else
      let at_ := bs.filterMap fun b => match b.2 with | .ok pa => some (b.1, pa / 128) | _ => none
      let bad := (bs.filter fun b => b.2 == .fail).map Prod.fst
      let s := s.modWave id fun w =>
        { w with wins := w.wins.map fun (b : Nat × Binding) => if bad.contains b.1 then (b.1, { b.2 with st := .recalled, line := 0 }) else b }
      (ascending (distinct (at_.map Prod.snd))).foldl (fun s l =>
        s.rebindLine id l ((at_.filter fun b => b.2 == l).map Prod.fst)) s
/-- The waves that have been resumed and wait to reopen their bindings try again, and their OPENs go on. -/
def State.rebindAll (s : State) : State :=
  ((s.waves.filter fun w => w.2.resident && w.2.rebinding).map Prod.fst).foldl (fun s id => (s.rebind id).openSettle id) s

/-! OPEN. -/

/-- The operation record of an issue. -/
def Ctx.newOp (c : Ctx) (s : State) (k : OpKind) : Op :=
  { id := s.nextOp, wave := c.id, split := c.split, second := c.second, pc := c.pc, core := c.w.core
    space := s.spaceOf c.id.grid, kind := k, slot := c.w.slot, first := c.w.pos * c.w.width, heir := c.split, stls := c.w.stls }
/-- An operation is in flight. -/
def State.addOp (s : State) (o : Op) : State := { s with ops := s.ops ++ [o], nextOp := s.nextOp + 1 }
/-- R237: an operation that completes at its issue, with its status. -/
def Ctx.complete (c : Ctx) (s : State) (k : OpKind) (st : BitVec 7) (x : Word) : Eff := .ok ((s.putS c.id st x).addDone (c.newOp s k))
/-- The executing path waits. -/
def State.park (s : State) (c : Ctx) (x : Wait) : State :=
  s.modWave c.id fun w => w.modPath c.split c.second c.hand fun p => { p with wait := some x }

/-- An OPEN or REOPEN goes in flight: its path waits for it, its lanes are looked up, and it goes as far as it can. -/
def Ctx.startOpen (c : Ctx) (i : Instr) (s : State) (x : OpenOp) : Eff :=
  let op := s.nextOp
  let s := ((s.addOp (c.newOp s (.open x))).park c (.op op)).openLook op
  let waits := match (s.op op).bind Op.openOf with | some x => !x.todo.isEmpty | none => false
  let s := if waits && !x.reopen then s.modWave c.id fun w => { w with hold := some op } else s
  .raw (((s.markIssue c).advance i c (nextPc c.pc)).openSettle c.id)

/-- The wave's path: R133's CLOSE of a lane's binding. -/
def Wave.close (w : Wave) (m : Lanes) (n : Nat) : Wave := (lanesOf m).foldl (fun w l => w.setBind l n {}) w

/-- OPEN (R121-R128). -/
def execOpen (h : Hdr) (w : BitVec 4) (a : Opnd) (st : BitVec 7) (rd : BitVec 2) (ro : Bool) (pd : BitVec 3) (tmo : BitVec 5)
    (s : State) : Host.Outcome State Fault Refusal :=
  let i := Instr.open h w a st rd ro pd tmo
  issue i s fun c s =>
    let x : OpenOp :=
      { reopen := false, win := w, lanes := c.sel, todo := c.lanes.map fun l => (l, BitVec.ofNat 64 (c.rd a 2 l immZ)), lines := []
        st := st, pd := pd, write := !ro, rd := rd, deadline := c.now + 2 ^ tmo.toNat }
    if c.any then c.startOpen i (s.modWave c.id fun x => x.close c.sel w.toNat) x else c.complete s (.open x) st (status cOK 0)

/-! REOPEN, CLOSE, WQUERY. -/

/-- The trapped lanes: those of the trapped split, of both of its paths where it is dual (R29, R256). -/
def Ctx.trapped (c : Ctx) : Lanes :=
  let x := c.w.split c.split
  x.p1.mask ||| (x.p2.map Path.mask).getD 0
/-- R139: a REOPEN of one window in some lanes. -/
def Ctx.reopen (c : Ctx) (i : Instr) (s : State) (win : BitVec 4) (m : Lanes) (st : BitVec 7) (tmo : BitVec 5) : Eff :=
  let l := (lanesOf m).filter fun l => (c.w.bind l win.toNat).st == .recalled
  let x : OpenOp :=
    { reopen := true, win := win, lanes := maskOf l, todo := l.map fun l => (l, (c.w.bind l win.toNat).addr), lines := [], checked := true
      st := st, pd := 7, write := false, rd := (c.w.bind (l.headD 0) win.toNat).rd, deadline := c.now + 2 ^ tmo.toNat }
  if l.isEmpty then c.complete s (.open x) st (status cNO_EFFECT 0) else c.startOpen i s x
/-- REOPEN (R139, R140): in handler mode its lanes are the trapped ones, whatever its guard. -/
def execReopen (h : Hdr) (w : BitVec 4) (st : BitVec 7) (tmo : BitVec 5) (s : State) : Host.Outcome State Fault Refusal :=
  issue (.reopen h w st tmo) s fun c s => c.reopen (.reopen h w st tmo) s w (if c.hand then c.trapped else c.sel) st tmo
/-- REOPEN.TRAP (R140, R150): the window of the trap, where its cause is WINDOW_RECALLED; PRIV outside handler mode. -/
def execReopenTrap (h : Hdr) (st : BitVec 7) (tmo : BitVec 5) (s : State) : Host.Outcome State Fault Refusal :=
  issue (.reopenTrap h st tmo) s fun c s =>
    match (if c.hand then c.w.hand else none) with
    | none => .trap .priv 0 .none c.mask 0
    | some k =>
      match (if c.w.record.type = Cause.windowRecalled.code then k.win else none) with
      | some n => c.reopen (.reopenTrap h st tmo) s (BitVec.ofNat 4 n) c.trapped st tmo
      | none => c.reopen (.reopenTrap h st tmo) s 0 0 st tmo
/-- CLOSE (R133): in handler mode, the trapped lanes. -/
def execClose (h : Hdr) (w : BitVec 4) (s : State) : Host.Outcome State Fault Refusal :=
  issue (.close h w) s fun c s =>
    if c.any then .ok (s.modWave c.id fun x => x.close (if c.hand then c.trapped else c.sel) w.toNat) else .ok s
/-- R134: what WQUERY writes without .ADDR. -/
def Binding.query (b : Binding) : Nat :=
  match b.st with
  | .unbound => 0
  | .bound | .pending => (if b.write then 512 else 0) + 128 + b.addr.toNat % 128
  | .recalled => (if b.write then 512 else 0) + 256 + b.addr.toNat % 128
/-- WQUERY (R134, R379). -/
def execWquery (h : Hdr) (d : BitVec 8) (w : BitVec 4) (addr : Bool) (s : State) : Host.Outcome State Fault Refusal :=
  issue (.wquery h d w addr) s fun c s =>
    lanePure c s d (if addr then 2 else 1) 4 fun l =>
      let b := c.w.bind l w.toNat
      if addr then (if b.st = .unbound then 0 else b.addr.toNat) else b.query

/-! Events. -/

/-- OPEN_FETCH_RETURN (R121, R124, R126, R136): a charged line that no engine owns comes from its home, or is refused. Where the bindings of a
REOPEN hold different reuse distances the line takes the first listed lane's (DESIGN CHOICE, log entry 78). -/
def execOpenFetchReturn (op line : Nat) (victim : Option Nat) (s : State) : Host.Outcome State Fault Refusal :=
  .next (match s.op op with
    | some o => match o.openOf, s.wave o.wave with
      | some x, some w =>
        if !(x.need.contains line && (tget s.owned line).isNone && w.resident && s.hasEntry o (some line)) then s
        else if !s.lineUp line then (s.refuse op line cOFFLINE).openSettle o.wave
        else if s.lineBad w.core.die line then (s.refuse op line cDATA).openSettle o.wave
        else
          let rd := if x.reopen then ((x.lines.find? fun y => y.2.2 == line).map fun y => (w.bind y.1 x.win.toNat).rd).getD 2 else x.rd
          ((s.fill w.core line rd.toNat victim).obtain o.wave op x line).openSettle o.wave
      | _, _ => s
    | none => s)

/-- The OPENs and REOPENs in flight on a die that wait for translations are looked up again. -/
def State.lookAgain (s : State) (die : Nat) : State :=
  let ops := s.ops.filter fun o => !o.done && o.core.die == die && ((s.wave o.wave).map Wave.resident).getD false &&
    (match o.openOf with | some x => !x.todo.isEmpty | none => false)
  ops.foldl (fun s o => (s.openLook o.id).openSettle o.wave) s

/-- R282: the page requests outstanding at the endpoint. -/
def State.priCount (s : State) : Nat := (s.dies.map fun d => d.pri.length).sum
/-- R282: page requests that wait are sent, the oldest first, while fewer than 512 are outstanding. -/
def State.priNext (s : State) : State :=
  let go := s.priWait.take (512 - s.priCount)
  go.foldl (fun s x => s.modDie x.1 fun d => { d with pri := addNew d.pri x.2 }) { s with priWait := s.priWait.drop go.length }
/-- ATS_TRANSLATION_REPLY (R146): the host's translation of a page, cached on the die; a refusal makes the fetch agent ask for the
page under PRI, which waits while 512 requests are outstanding (R282). One that has been sent stays outstanding until it is answered. -/
def execAtsTranslationReply (die space page : Nat) (pa : Nat) (perms : Option Perms) (s : State) : Host.Outcome State Fault Refusal :=
  .next (match perms with
    | some p => ((({ s with priWait := s.priWait.filter fun x => x != (die, space, page) } : State).modDie die fun d =>
        { d with ats := tset d.ats (space, page) (some (pa, p)) }).rebindAll).lookAgain die
    | none =>
      let t := s.modDie die fun d => { d with ats := tset d.ats (space, page) none }
      (if t.priOn die space page then t else ({ t with priWait := t.priWait ++ [(die, space, page)] } : State).priNext).rebindAll)

/-- Whether an operation in flight, other than an OPEN, waits for a page at the moment, if it waits for one. -/
def State.onPage (s : State) (o : Op) (page : Nat) : Bool :=
  match o.kind with
  | .cpy _ dir src dst _ _ _ done _ =>
    (dir != .pm && (src + done) / 4096 == page) || (dir != .mp && (dst + done) / 4096 == page)
  | .bina .. | .commit .. | .launch .. => true
  | .binr _ _ _ _ replay => replay.isSome
  | .matrix _ => s.hearths.any fun h => (h.2.queue.head?.map MxOp.id) == some o.id
  | _ => false
/-- The page of device addresses at which an end of a MEMCPY stands, if it is one of this device. -/
def copyPage (e : CopyEnd) (off : Nat) : Option Nat := match e with | .device va => some ((va + off) / 4096) | _ => none
/-- R146, R235: a MEMCPY that stands at a page which the host refuses. -/
def HostCopy.refuse (k : HostCopy) (die space page : Nat) : HostCopy :=
  if k.die = die ∧ k.space = space ∧ (copyPage k.src k.done = some page ∨ copyPage k.dst k.done = some page) then
    { k with denied := addNew k.denied page } else k
/-- Whether a path of a wave stands at a COMMIT that has not issued. -/
def State.atCommit (s : State) (id : WaveId) (w : Wave) : Bool :=
  w.paths.any fun p => p.2.2.2.wait.isNone && (match (s.core w.core).codeLine (s.spaceOf id.grid) p.2.2.2.pc with
    | some (line, _) => (match decode (slotWord line p.2.2.2.pc) with | .ok (.commit ..) => true | _ => false)
    | none => false)
/-- R146, R149, R351: a page that the host refuses is refused to the records of scope wave for which a COMMIT waits at its issue. -/
def State.denyReds (s : State) (die space page : Nat) : State :=
  let deny : Nat × Nat → RedRec → RedRec := fun b r =>
    if r.scope = 0 ∧ r.marked = true ∧ r.space = space ∧ r.va / 32 = page ∧
        ((s.wave ⟨b.1, b.2, r.wave⟩).map fun w => w.core.die == die && s.atCommit ⟨b.1, b.2, r.wave⟩ w) = some true then { r with denied := true } else r
  { s with blocks := s.blocks.map fun (b : (Nat × Nat) × Block) => (b.1, { b.2 with reds := b.2.reds.map (deny b.1) }) }
/-- PRI_RESPONSE (R146): after success the page is asked for again; after any other response the lanes that wait for it fault
at OPEN, and give NOT_TRANSLATED at REOPEN, and engines are refused. -/
def execPriResponse (die space page : Nat) (ok : Bool) (s : State) : Host.Outcome State Fault Refusal :=
  .next (
    if !(s.die die).pri.contains (space, page) then s
    else
      let s := (s.modDie die fun d =>
        { d with ats := (if tget d.ats (space, page) = some none then tdel d.ats (space, page) else d.ats)
                 pri := d.pri.filter fun x => x != (space, page) }).priNext
      if ok then s
      else
        let s := { s with copies := s.copies.map fun k => k.refuse die space page : State }.denyReds die space page
        let hit : DWord → Bool := fun a => a.toNat / 4096 == page
        let mine := s.ops.filter fun o => !o.done && o.core.die == die && o.space == space
        let ops := mine.filter fun o => (match o.openOf with | some x => x.todo.any fun y => hit y.2 | none => false)
        let s := (mine.filter fun o => s.onPage o page).foldl (fun s o => s.modOp o.id fun o => { o with denied := addNew o.denied page }) s
        ops.foldl (fun s o => (s.modOpen o.id fun x =>
          let bad := x.todo.filter fun y => hit y.2
          { x with
            todo := x.todo.filter fun y => !hit y.2
            faulted := if x.reopen then x.faulted else x.faulted ++ bad
            codes := if x.reopen then addNew x.codes 0x48 else x.codes }).openSettle o.wave) s)

/-- R123: the XLATE trap of a faulted split or stopped path. -/
def Wave.openTrap (w : Wave) (id : WaveId) (k : Nat) (second : Bool) : Option Trap :=
  let x := w.split k
  let mk : PC → Lanes → DWord → Trap := fun pc m a =>
    { cause := .xlate, trappc := pc, split := k, second := second
      record := { w.mkRecord id k .xlate with field := .a, pc := pc, mask := m, addr := a } }
  if x.st = .faulted then some (mk x.p1.pc x.p1.mask x.faultAddr)
  else if x.st = .running then
    match (x.path second).wait with
    | some (.openFault m a) => some (mk (x.path second).pc m a)
    | _ => none
  else none
/-- OPEN_FAULT_TRAP (R123): taken when no other split or path of the wave is a candidate. -/
def execOpenFaultTrap (p : PathId) (s : State) : Host.Outcome State Fault Refusal :=
  .next (match s.wave p.wave with
    | some w =>
      if w.runs && w.hand.isNone && w.nextPath.isNone then
        match w.openTrap p.wave p.split p.second with
        | some t => s.takeTrap p.wave t
        | none => s
      else s
    | none => s)

end Sys2Proof.Machine
end

