-- ==== Sys2Proof/Machine/Access.lean ====
section
/-! DEFINITION. Loads and stores: LDW, LDWS, STW, STWS, LDL, STL and CSTW (06 R129-R132; 08 R152, R163, R164; 14 R249-R254; 19 R305;
20 R328-R331; 22 R369-R371). -/

namespace Sys2Proof

/-- The bytes of a type. -/
def Ty.bytes (t : Ty) : Nat := t.bits / 8

end Sys2Proof

namespace Sys2Proof.Machine

/-! Values and bytes. -/

/-- An element as a register value: extended under R185. -/
def loadVal (t : Ty) (raw : Nat) : Nat := if t.isInt then writeInt t (readInt t raw) else raw
/-- R331: the writes of a load of `size` bytes in lanes, or to a scalar. -/
def loadWrites (scalar : Bool) (d : Nat) (t : Ty) (size : Nat) (vals : List (Nat × List Byte)) : List (RReg × List (Nat × Word)) :=
  (List.range (size / t.bytes)).flatMap fun j =>
    let vs := vals.map fun v => (v.1, loadVal t (ofLe ((v.2.drop (j * t.bytes)).take t.bytes)))
    if scalar then scaWrites (d + j * t.regs) t.regs ((vs.head?.map Prod.snd).getD 0) else vecWrites (d + j * t.regs) t.regs vs
/-- The value of `n` registers. -/
def Wave.regs (w : Wave) (scalar : Bool) (r n lane : Nat) : Nat :=
  let one : Nat → Nat := fun k => (if scalar then w.sreg k else w.vreg k lane).toNat
  one r + (if n = 2 then 4294967296 * one (r + 1) else 0)
/-- R371: the bytes that a lane stores: the low bytes of each element's register or pair. -/
def Wave.storeBytes (w : Wave) (scalar : Bool) (d : Nat) (t : Ty) (size lane : Nat) : List Byte :=
  (List.range (size / t.bytes)).flatMap fun j => leBytes t.bytes (w.regs scalar (d + j * t.regs) t.regs lane)
/-- A run of bytes of one line, as a delta of a buffer. -/
def runDelta (space : Nat) (a : LaneAcc) (bs : List Byte) (child count : Nat) : Delta :=
  { space := space, va := a.va / 128, pa := a.pa / 128
    bytes := (List.range bs.length).map fun k => (a.pa % 128 + k, { val := bs.getD k 0, child := child, count := count }) }

/-- R163: bytes that a wave stores to are no longer those that an earlier ATOM, strong store or RED of it may take out of its buffer. -/
def State.unwatch (s : State) (id : WaveId) (x : Watch) : State :=
  ({ s with ops := s.ops.map fun (o : Op) => if o.wave = id then { o with watch := o.watch.without x } else o } : State).modBlock
    id.grid id.block fun b => { b with reds := b.reds.map fun r => if r.wave = id.wave then { r with own := r.own.without x } else r }
/-- R152: bytes enter a wave's store buffer. -/
def State.storeWave (s : State) (id : WaveId) (as_ : List (LaneAcc × List Byte)) : State :=
  let space := s.spaceOf id.grid
  let s := s.unwatch id (watchOf (as_.map fun x => (x.1, x.2.length)))
  (s.modWave id fun w => { w with wbuf := as_.foldl (fun b x => bufPut b (runDelta space x.1 x.2 0 0)) w.wbuf }).spill id
/-- R163: those bytes of a run that stand in `watch` leave a wave's store buffer, and what its COMMITs in flight have taken from it. -/
def State.unstoreWave (s : State) (id : WaveId) (watch : Watch) (a : LaneAcc) (n : Nat) : State :=
  let take := bufTake ((watch.within (watchOf [(a, n)])).holds (s.spaceOf id.grid))
  let op : Op → Op := fun o => match o.kind with
    | .commit level strict st snap => if o.wave = id then { o with kind := .commit level strict st (take snap) } else o
    | _ => o
  ({ s with ops := s.ops.map op } : State).modWave id fun w => { w with wbuf := take w.wbuf }

/-- The offsets of an access, by lane (R129). -/
def Ctx.offsets (c : Ctx) (off : Opnd) (ls : List Nat) : List (Nat × Nat) := ls.map fun l => (l, c.rd off 1 l immZ)
/-- The bytes of a plain read in a lane, and whether it meets an uncorrectable delta (R271). -/
def Ctx.plainRead (c : Ctx) (s : State) (a : LaneAcc) (size : Nat) : List Byte × Bool :=
  let bs := (List.range size).map fun k => s.plainByte c.id c.w.core (a.va / 128) (a.pa / 128) (a.pa % 128 + k)
  (bs.map Prod.fst, bs.any Prod.snd)

/-! Window loads and stores. -/

/-- R330, R331: a load in some lanes, whose checks have passed. -/
def Ctx.load (c : Ctx) (s : State) (scalar : Bool) (d n : Nat) (offs : List (Nat × Nat)) (t : Ty) (size : Nat) (acc : Acc) : Eff :=
  let accs := offs.map fun x => c.place n x.1 x.2
  match acc with
  | .sc k =>
    if accs.isEmpty then .ok s
    else .ok (s.addOp (c.newOp s (.strongLoad k.toNat accs t size scalar d)))
  | _ =>
    let rs := accs.map fun a => (a.lane, c.plainRead s a size)
    if rs.any (fun r => r.2.2) then .trap .dataError 0 .a c.mask 0
    else if rs.isEmpty then .ok s
    else .ok (c.fix s 8 (loadWrites scalar d t size (rs.map fun r => (r.1, r.2.1))))

/-- LDW (R331): with .CHK, lanes that are not bound leave the access and do not trap. -/
def execLdw (h : Hdr) (d : BitVec 8) (w : BitVec 4) (off : Opnd) (ty : Ty) (size : BitVec 3) (acc : Acc) (s : State) :
    Host.Outcome State Fault Refusal :=
  issue (.ldw h d w off ty size acc) s fun c s =>
    let chk := match acc with | .chk _ => true | _ => false
    let ls := if chk then c.lanes.filter fun l => (c.w.bind l w.toNat).st == .bound else c.lanes
    let offs := c.offsets off ls
    match c.winTrap w.toNat offs (2 ^ size.toNat) false with
    | some e => e
    | none =>
      match c.load s false d.toNat w.toNat offs ty (2 ^ size.toNat) acc with
      | .ok t => match acc with
        | .chk p => .ok (c.fix t 8 (predWrites p.toNat (c.lanes.map fun l => (l, ls.contains l))))
        | _ => .ok t
      | e => e
/-- LDWS (R331): through the binding of the lowest selected lane. -/
def execLdws (h : Hdr) (d : BitVec 7) (w : BitVec 4) (off : Opnd) (ty : Ty) (size : BitVec 3) (acc : Acc) (s : State) :
    Host.Outcome State Fault Refusal :=
  issue (.ldws h d w off ty size acc) s fun c s =>
    let offs := c.offsets off (c.lanes.take 1)
    match c.winTrap w.toNat offs (2 ^ size.toNat) false with
    | some e => e
    | none => c.load s true d.toNat w.toNat offs ty (2 ^ size.toNat) acc

/-- R371: a store in some lanes, whose checks have passed: into the wave buffer, or as a strong store, which hides its bytes of the wave buffer
from later plain reads and takes them out when it performs (R163, R166; log entry 79). -/
def Ctx.store (c : Ctx) (s : State) (scalar : Bool) (d n : Nat) (offs : List (Nat × Nat)) (t : Ty) (size : Nat) (acc : Acc) : State :=
  let as_ := offs.map fun x => (c.place n x.1 x.2, c.w.storeBytes scalar d t size x.1)
  if as_.isEmpty then s
  else match acc with
  | .sc k =>
    s.addOp { c.newOp s (.strongStore k.toNat (as_.map fun x => { x.1 with bytes := x.2 })) with
      watch := watchOf (as_.map fun x => (x.1, x.2.length)) }
  | _ => s.storeWave c.id as_

/-- STW (R370, R371). -/
def execStw (h : Hdr) (d : BitVec 8) (w : BitVec 4) (off : Opnd) (ty : Ty) (size : BitVec 3) (acc : Acc) (s : State) :
    Host.Outcome State Fault Refusal :=
  issue (.stw h d w off ty size acc) s fun c s =>
    let offs := c.offsets off c.lanes
    match c.winTrap w.toNat offs (2 ^ size.toNat) true with
    | some e => e
    | none => .ok (c.store s false d.toNat w.toNat offs ty (2 ^ size.toNat) acc)
/-- STWS (R370, R371): through the binding of the lowest selected lane. -/
def execStws (h : Hdr) (d : BitVec 7) (w : BitVec 4) (off : Opnd) (ty : Ty) (size : BitVec 3) (acc : Acc) (s : State) :
    Host.Outcome State Fault Refusal :=
  issue (.stws h d w off ty size acc) s fun c s =>
    let offs := c.offsets off (c.lanes.take 1)
    match c.winTrap w.toNat offs (2 ^ size.toNat) true with
    | some e => e
    | none => .ok (c.store s true d.toNat w.toNat offs ty (2 ^ size.toNat) acc)

/-! The pantry (R328, R329, R369). -/

/-- The number of a wave's core in its block (R101). -/
def State.shareOf (s : State) (id : WaveId) : Nat := match s.block id.grid id.block with | some b => id.wave % b.ncores | none => 0
/-- The bytes of a pantry share of a block (R94, offset 0x2C). -/
def Record.shareBytes (r : Record) : Nat := 8192 * r.share
/-- A pantry share. -/
def State.share (s : State) (g b k : Nat) : Share := ((s.block g b).map fun x => x.shares.getD k {}).getD {}
/-- R218, R236: the history of a share with bytes written by a wave's STL or a copy. -/
def Share.note (h : Share) (by_ : Nat × Nat) (cells : Cells) : Share :=
  { h with hist := cells.foldl (fun (l : List (Nat × Option (Nat × Nat) × Byte)) c =>
      (if l.any fun y => y.1 == c.1 then l else l ++ [(c.1, none, sget 0 h.bytes c.1)]) ++ [(c.1, some by_, c.2)]) h.hist }
/-- R218, R236: a share as a gather reads it that has observed so many STLs of each wave, and the copies so marked. -/
def Share.asSeen (h : Share) (seen : List (Nat × Nat)) : Share :=
  let shown : Option (Nat × Nat) → Bool := fun x => match x with | none => true | some x => seen.any fun y => y.1 == x.1 && decide (x.2 ≤ y.2)
  { h with bytes := (h.hist.filter fun x => shown x.2.1).foldl (fun (l : Cells) x => sset 0 l x.1 x.2.2) h.bytes }
/-- R218, R329: bytes written into a pantry share; those that a matrix operation in flight or suspended at the share's hearth may gather are
noted with it. `by_` is the wave that stores, with the number of this STL of it, or the mark of a copy. -/
def State.pantryWrite (s : State) (g b k : Nat) (by_ : Nat × Nat) (cells : Cells) : State :=
  let s := s.modBlock g b fun x => { x with shares := lmod x.shares k fun h =>
    let h := if 2 ≤ x.ncores then h.note by_ cells else h
    { h with bytes := cells.foldl (fun (l : Cells) (c : Nat × Byte) => sset 0 l c.1 c.2) h.bytes
             bad := h.bad.filter fun o => !cells.any fun c => c.1 == o } }
  match s.block g b with
  | none => s
  | some x =>
    let key := (x.die, (x.base + k) / 2)
    let mine : MxOp → Bool := fun m => ((s.ops.find? fun o => o.id == m.id).map fun o => o.wave.grid == g && o.wave.block == b).getD false
    let at_ := cells.map fun c => c.1 + (if (x.base + k) % 2 = 1 then 2097152 else 0)
    let note : MxOp → MxOp := fun m => if mine m then { m with dirty := m.dirty ++ at_ } else m
    let here : WaveId → Bool := fun id =>
      id.grid == g && id.block == b && decide ((x.base + id.wave % x.ncores) / 2 = (x.base + k) / 2)
    let s := { s with suspended := s.suspended.map fun x => if here x.1 then (x.1, { x.2 with dirty := x.2.dirty ++ at_ }) else x }
    if (tget s.hearths key).isSome then s.modHearth key fun h => { h with queue := h.queue.map note } else s
/-- R328: the pantry offsets of an access and its checks. -/
def Ctx.pantry (c : Ctx) (a : Opnd) (disp : BitVec 20) (size : Nat) : Except Eff (List (Nat × Nat)) :=
  let os : List (Nat × Int) := c.lanes.map fun l => (l, (c.rd a 1 l immZ : Int) + disp.toInt)
  let bad := os.filter fun x => decide (x.2 < 0 ∨ x.2 % (size : Int) ≠ 0 ∨ (c.grid.rec_.shareBytes : Int) < x.2 + (size : Int))
  match bad with
  | [] => .ok (os.map fun x => (x.1, x.2.toNat))
  | x :: _ => .error (.trap .misalign 0 .a (maskOf (bad.map Prod.fst)) (BitVec.ofInt 64 x.2))
/-- LDL (R328): an uncorrectable byte traps DATA_ERROR. -/
def execLdl (h : Hdr) (d : BitVec 8) (a : Opnd) (disp : BitVec 20) (ty : Ty) (size : BitVec 3) (s : State) :
    Host.Outcome State Fault Refusal :=
  issue (.ldl h d a disp ty size) s fun c s =>
    match c.pantry a disp (2 ^ size.toNat) with
    | .error e => e
    | .ok os =>
      let sh := s.share c.id.grid c.id.block (s.shareOf c.id)
      if os.any (fun x => (List.range (2 ^ size.toNat)).any fun k => sh.bad.contains (x.2 + k)) then .trap .dataError 0 .a c.mask 0
      else if os.isEmpty then .ok s
      else .ok (c.fix s 10 (loadWrites false d.toNat ty (2 ^ size.toNat)
        (os.map fun x => (x.1, (List.range (2 ^ size.toNat)).map fun k => sget 0 sh.bytes (x.2 + k)))))
/-- STL (R369): applied at issue; the highest lane's byte stands. -/
def execStl (h : Hdr) (d : BitVec 8) (a : Opnd) (disp : BitVec 20) (ty : Ty) (size : BitVec 3) (s : State) :
    Host.Outcome State Fault Refusal :=
  issue (.stl h d a disp ty size) s fun c s =>
    match c.pantry a disp (2 ^ size.toNat) with
    | .error e => e
    | .ok os =>
      if os.isEmpty then .ok s
      else
        let n := c.w.stls + 1
        let t := s.modWave c.id fun w => { w with stls := n }
        .ok (t.pantryWrite c.id.grid c.id.block (s.shareOf c.id) (c.id.wave, n) (os.flatMap fun x =>
          let bs := c.w.storeBytes false d.toNat ty (2 ^ size.toNat) x.1
          (List.range bs.length).map fun k => (x.2 + k, bs.getD k 0)))

/-! CSTW (R249-R251, R254, R305). -/

/-- A binding's state as R134 codes it. -/
def Binding.code (b : Binding) : Nat := match b.st with | .unbound => 0 | .bound | .pending => 1 | .recalled => 2
/-- The resume index of a CSTW at the executing path's PC, if one is in force (R251). -/
def Ctx.resumeIx (c : Ctx) : Option Nat :=
  (c.w.resume.find? fun r => r.split == c.split && r.lanes == c.mask && r.pc == c.pc).map Resume.q
/-- The wave without the executing path's resume index. -/
def Ctx.clearResume (c : Ctx) (s : State) : State :=
  s.modWave c.id fun w => { w with resume := w.resume.filter fun r => !(r.split == c.split && r.lanes == c.mask) }
/-- R250, R254: the trap that a CSTW's checks give in its binding lane `l`. R254 names no bytes for the lanes done: the model puts their number in detail
bytes 0 to 3 (DESIGN CHOICE, log entry 111). -/
def Ctx.cstwTrap (c : Ctx) (w l off z n : Nat) (detail : BitVec 128) : Option Eff :=
  let b := c.w.bind l w
  let m : Lanes := BitVec.twoPow 64 l
  let base := b.addr.toNat % 128 + off
  if b.st = .unbound then some (.trapDetail .windowClosed .a m 0 detail)
  else if b.st = .recalled then some (.trapDetail .windowRecalled .a m 0 detail)
  else if !b.write then some (.trapDetail .xlate .a m 0 detail)
  else if 127 < off ∨ base % z ≠ 0 ∨ 256 < base + n * z then
    some (.trapDetail .misalign .a m (b.addr + BitVec.ofNat 64 off) detail)
  else none
/-- CSTW (R250, R251, R254). -/
def execCstw (h : Hdr) (d : BitVec 8) (w : BitVec 4) (off : Opnd) (ty : Ty) (cw : BitVec 4) (s : State) :
    Host.Outcome State Fault Refusal :=
  issue (.cstw h d w off ty cw) s fun c s =>
    let q := c.resumeIx.getD 0
    let n := c.lanes.length
    if n ≤ q then .ok (c.clearResume s)
    else
      let l := (lowest c.mask).getD 0
      let o := c.rd off 1 l immZ
      let z := ty.bytes
      match c.cstwTrap w.toNat l o z n (BitVec.ofNat 128 q) with
      | some e => e
      | none =>
        let b := c.w.bind l w.toNat
        let k := c.w.bind l cw.toNat
        let base := b.addr.toNat % 128 + o
        let elems := (List.range n).drop q
        let first := elems.filter fun j => decide (base + j * z + z ≤ 128)
        let rest := elems.filter fun j => decide (128 < base + j * z + z)
        let bytes : Nat → List Byte := fun j => leBytes z (c.w.regs false d.toNat ty.regs (c.lanes.getD j 0))
        let put : Binding → Nat → LaneAcc := fun b p =>
          { lane := l, va := b.addr.toNat - b.addr.toNat % 128 + p, pa := 128 * b.line + p }
        let s1 := if first.isEmpty then s else s.storeWave c.id (first.map fun j => (put b (base + j * z), bytes j))
        if rest.isEmpty then .ok (c.clearResume s1)
        else if k.st = .bound ∧ k.write then
          .ok (c.clearResume (s1.storeWave c.id (rest.map fun j => (put k (base + j * z - 128), bytes j))))
        else
          let q1 := q + first.length
          let s2 := (c.clearResume s1).modWave c.id fun w =>
            { w with resume := w.resume ++ [{ split := c.split, lanes := c.mask, pc := c.pc, q := q1 }] }
          .trapAfter s2 .cstwPartial .none c.sel 0 c.pc (BitVec.ofNat 128 (q1 + 2 ^ 32 * cw.toNat + 2 ^ 40 * k.code))

end Sys2Proof.Machine
end

