-- ==== Sys2Proof/Machine/Integer.lean ====
section
/-! DEFINITION. The integer and logic class: arithmetic, bit operations, moves, lane exchange, reductions, compares and predicate
logic (19 R296, R297, R300; 20 R321-R324, R332, R333; 21 R337, R338, R344-R346, R349, R353; 22 R357-R361, R380, R381; 11 R200). -/

namespace Sys2Proof.Machine

/-! The operations as functions of values. -/

/-- R321: an exact result wrapped or saturated to a type. -/
def intFin (t : Ty) (sat : Bool) (x : Int) : Nat := writeInt t (if sat then clampInt t x else x)
/-- R321: the high half of an exact product. -/
def mulHi (t : Ty) (a b : Int) : Int := (a * b) / (2 ^ t.bits : Nat)

/-- R322: the sum of the four products of 8-bit elements and c; `sgn` gives the elements' signedness. -/
def dot4 (sgn : BitVec 2) (a b : Nat) (c : Int) : Int :=
  let ta : Ty := if sgn.getLsbD 1 then .n8 else .i8
  let tb : Ty := if sgn.getLsbD 0 then .n8 else .i8
  (List.range 4).foldl (fun acc j => acc + readInt ta (a / 256 ^ j) * readInt tb (b / 256 ^ j)) c

/-- R333: the three-input truth table, bit by bit, of width `w`. -/
def lop3Val (w : Nat) (t : BitVec 8) (a b c : Nat) : Nat :=
  (List.range w).foldl (fun acc k =>
    let i := (if a.testBit k then 1 else 0) + (if b.testBit k then 2 else 0) + (if c.testBit k then 4 else 0)
    acc + if t.getLsbD i then 2 ^ k else 0) 0

/-- R361: a left shift; an amount of the width or more gives 0. -/
def shlVal (w a n : Nat) : Nat := if n < w then a * 2 ^ n % 2 ^ w else 0
/-- R361: a right shift with zeros. -/
def shrVal (w a n : Nat) : Nat := if n < w then a % 2 ^ w / 2 ^ n else 0
/-- R361: a right shift with copies of the sign bit. -/
def shraVal (t : Ty) (a n : Nat) : Nat := writeInt t (readInt t a / (2 ^ min n t.bits : Nat))
/-- R353: a rotation by `n` modulo the width. -/
def rotVal (w a n : Nat) (right : Bool) : Nat :=
  let n := n % w
  let l := if right then (w - n) % w else n
  (a * 2 ^ l + a / 2 ^ (w - l)) % 2 ^ w
/-- R359: the funnel shift of {hi, lo}. -/
def shfVal (lo hi n : Nat) (right : Bool) : Nat :=
  let x := lo + 2 ^ 32 * hi
  if right then x / 2 ^ (n % 64) % 2 ^ 32 else x * 2 ^ (n % 64) / 2 ^ 32 % 2 ^ 32

/-- R296: a field of position p and length l; a bit above the width reads as the sign bit for .I and 0 for .N. -/
def bfeVal (t : Ty) (x ctl : Nat) : Nat :=
  let w := t.bits
  let p := ctl % 256
  let l := min (ctl / 256 % 256) w
  if l = 0 then 0
  else
    let f := (readInt t x / (2 ^ p : Nat)) % (2 ^ l : Nat)
    if t.signed && decide ((2 ^ (l - 1) : Nat) ≤ f) then writeInt t (f - (2 ^ l : Nat)) else writeInt t f
/-- R297: the low bits of `a` placed at p .. p+l-1 of `d`. -/
def bfiVal (w d a ctl : Nat) : Nat :=
  let p := ctl % 256
  let l := ctl / 256 % 256
  (List.range w).foldl (fun acc j =>
    acc + if (if p ≤ j ∧ j < p + l then a.testBit (j - p) else d.testBit j) then 2 ^ j else 0) 0

/-- R345: the number of 1 bits. -/
def popcVal (w a : Nat) : Nat := ((List.range w).filter fun k => a.testBit k).length
/-- R300: the number of zero bits above the highest 1 bit. -/
def clzVal (w a : Nat) : Nat := if a % 2 ^ w = 0 then w else w - 1 - Nat.log2 (a % 2 ^ w)
/-- R300: the bits in reverse order. -/
def brevVal (w a : Nat) : Nat := (List.range w).foldl (fun acc k => acc + if a.testBit (w - 1 - k) then 2 ^ k else 0) 0
/-- R346: one byte that a selector nibble names. -/
def prmtByte (a b n : Nat) : Nat :=
  if n < 4 then a / 256 ^ n % 256 else if n < 8 then b / 256 ^ (n - 4) % 256 else if n = 8 then 0 else 255
/-- R346: four bytes by a selector. -/
def prmtVal (a b : Nat) (sel : BitVec 16) : Nat :=
  (List.range 4).foldl (fun acc j => acc + 256 ^ j * prmtByte a b (sel.extractLsb' (4 * j) 4).toNat) 0
/-- R332: A + (ext(B) << s) modulo 2^w. -/
def leaVal (t : Ty) (a b : Nat) (sx : Bool) (sh : BitVec 5) : Nat :=
  let e : Nat := if sx then ((BitVec.ofNat 32 b).signExtend 64).toNat else b
  (a + e * 2 ^ sh.toNat) % 2 ^ t.bits

/-- R358: a condition on the order of two operands that are no NaN. -/
def condOf (k : Cond) (o : Ordering) : Bool :=
  match k with
  | .eq => o == .eq
  | .ne => o != .eq
  | .lt => o == .lt
  | .le => o != .gt
  | .gt => o == .gt
  | .ge => o != .lt
  | .num => true
  | .nan => false
/-- R358: a condition on two values of a type, with the events it counts. `ftz` flushes FP32 operands. -/
def setpVal (t : Ty) (k : Cond) (ftz : Bool) (a b : Nat) : Bool × Events :=
  if t.isInt then (condOf k (compare (readInt t a) (readInt t b)), 0)
  else
    let f := tyFmt t
    let x := f.val (f.flushIn (ftz && t == .f32) a)
    let y := f.val (f.flushIn (ftz && t == .f32) b)
    (if x.isNan || y.isNan then k == .ne || k == .nan else condOf k (x.cmp y), sigEv [x, y])

/-- R381: two lanes' values combined. -/
def combine (t : Ty) (rm : Rnd) (op : AOp) (a b : Nat) : Nat × Events :=
  if t.isInt then
    match op with
    | .min => (writeInt t (min (readInt t a) (readInt t b)), 0)
    | .max => (writeInt t (max (readInt t a) (readInt t b)), 0)
    | .and => (a &&& b, 0)
    | .or => (a ||| b, 0)
    | .xor => (a ^^^ b, 0)
    | .exch | .cas => (b, 0)
    | .add => ((a + b) % 2 ^ t.bits, 0)
  else
    let f := tyFmt t
    match op with
    | .min => fMinMax f false a b
    | .max => fMinMax f true a b
    | .exch | .cas => (b, 0)
    | _ => fAdd f rm false (f.val a) (f.val b)
/-- R381: the identity that an ABSENT result gives. -/
def identOf (t : Ty) (op : AOp) : Nat :=
  let ones := 2 ^ t.bits - 1
  match op with
  | .min => if t.isInt then writeInt t (maxInt t) else (tyFmt t).infBits false
  | .max => if t.isInt then writeInt t (minInt t) else (tyFmt t).infBits true
  | .and => ones
  | _ => 0

/-- The ABSENT-aware step of R200. -/
def joinNodes (f : Nat → Nat → Nat × Events) (a b : Option Nat × Events) : Option Nat × Events :=
  match a.1, b.1 with
  | none, _ => (b.1, a.2 ||| b.2)
  | _, none => (a.1, a.2 ||| b.2)
  | some x, some y => let r := f x y; (some r.1, a.2 ||| b.2 ||| r.2)
/-- R200: node (lo, 2^k). -/
def treeNode (f : Nat → Nat → Nat × Events) (v : Nat → Option Nat) : Nat → Nat → Option Nat × Events
  | 0, lo => (v lo, 0)
  | k + 1, lo => joinNodes f (treeNode f v k lo) (treeNode f v k (lo + 2 ^ k))
/-- R200: the aligned blocks of [lo, lo + n), the largest first, combined in ascending order. -/
def scanNodes (f : Nat → Nat → Nat × Events) (v : Nat → Option Nat) : Nat → Nat → Nat → Option Nat × Events → Option Nat × Events
  | 0, lo, n, acc => if n = 1 then joinNodes f acc (v lo, 0) else acc
  | k + 1, lo, n, acc =>
    if 2 ^ (k + 1) ≤ n then scanNodes f v k (lo + 2 ^ (k + 1)) (n - 2 ^ (k + 1)) (joinNodes f acc (treeNode f v (k + 1) lo))
    else scanNodes f v k lo n acc

/-- The operand of a lane that a reduction reads: none where the guard does not select the lane. -/
def Ctx.present (c : Ctx) (a : BitVec 8) (n : Nat) (lane : Nat) : Option Nat :=
  if c.sel.getLsbD lane then some (c.rd (.v a) n lane immZ) else none

/-! The meanings. -/

/-- A two-source integer instruction (R321). -/
def intOp2 (c : Ctx) (s : State) (d : BitVec 8) (a b : Opnd) (t : Ty) (f : Int → Int → Nat) : Eff :=
  lanePure c s d t.regs 4 fun l => f (readInt t (c.rd a t.regs l (immInt t))) (readInt t (c.rd b t.regs l (immInt t)))
/-- A three-source integer instruction (R324). -/
def intOp3 (c : Ctx) (s : State) (d : BitVec 8) (a b x : Opnd) (t : Ty) (f : Int → Int → Int → Nat) : Eff :=
  lanePure c s d t.regs 4 fun l =>
    f (readInt t (c.rd a t.regs l (immInt t))) (readInt t (c.rd b t.regs l (immInt t))) (readInt t (c.rd x t.regs l (immInt t)))
/-- A shift: A of the type's registers, an amount of 32 bits (R361). -/
def shiftOp (c : Ctx) (s : State) (d : BitVec 8) (a b : Opnd) (t : Ty) (f : Nat → Nat → Nat) : Eff :=
  lanePure c s d t.regs 4 fun l => f (c.rd a t.regs l immZ) (c.rd b 1 l immZ)

/-- IADD (R321). -/
def execIadd (h : Hdr) (d : BitVec 8) (a b : Opnd) (ty : Ty) (sat : Bool) (s : State) : Host.Outcome State Fault Refusal :=
  issue (.iadd h d a b ty sat) s fun c s => intOp2 c s d a b ty fun x y => intFin ty sat (x + y)
/-- ISUB (R321). -/
def execIsub (h : Hdr) (d : BitVec 8) (a b : Opnd) (ty : Ty) (sat : Bool) (s : State) : Host.Outcome State Fault Refusal :=
  issue (.isub h d a b ty sat) s fun c s => intOp2 c s d a b ty fun x y => intFin ty sat (x - y)
/-- IMUL (R321). -/
def execImul (h : Hdr) (d : BitVec 8) (a b : Opnd) (ty : Ty) (sat : Bool) (s : State) : Host.Outcome State Fault Refusal :=
  issue (.imul h d a b ty sat) s fun c s => intOp2 c s d a b ty fun x y => intFin ty sat (x * y)
/-- IMULHI (R321). -/
def execImulhi (h : Hdr) (d : BitVec 8) (a b : Opnd) (ty : Ty) (s : State) : Host.Outcome State Fault Refusal :=
  issue (.imulhi h d a b ty) s fun c s => intOp2 c s d a b ty fun x y => writeInt ty (mulHi ty x y)
/-- IMAD (R324). -/
def execImad (h : Hdr) (d : BitVec 8) (a b x : Opnd) (ty : Ty) (sat : Bool) (s : State) : Host.Outcome State Fault Refusal :=
  issue (.imad h d a b x ty sat) s fun c s => intOp3 c s d a b x ty fun p q r => intFin ty sat (p * q + r)
/-- IMIN (R321). -/
def execImin (h : Hdr) (d : BitVec 8) (a b : Opnd) (ty : Ty) (s : State) : Host.Outcome State Fault Refusal :=
  issue (.imin h d a b ty) s fun c s => intOp2 c s d a b ty fun x y => writeInt ty (min x y)
/-- IMAX (R321). -/
def execImax (h : Hdr) (d : BitVec 8) (a b : Opnd) (ty : Ty) (s : State) : Host.Outcome State Fault Refusal :=
  issue (.imax h d a b ty) s fun c s => intOp2 c s d a b ty fun x y => writeInt ty (max x y)
/-- IABS (R321). -/
def execIabs (h : Hdr) (d : BitVec 8) (a : Opnd) (ty : Ty) (sat : Bool) (s : State) : Host.Outcome State Fault Refusal :=
  issue (.iabs h d a ty sat) s fun c s => intOp2 c s d a a ty fun x _ => intFin ty sat x.natAbs
/-- ISAD (R324). -/
def execIsad (h : Hdr) (d : BitVec 8) (a b x : Opnd) (ty : Ty) (sat : Bool) (s : State) : Host.Outcome State Fault Refusal :=
  issue (.isad h d a b x ty sat) s fun c s => intOp3 c s d a b x ty fun p q r => intFin ty sat ((p - q).natAbs + r)
/-- IDOT4 (R322). -/
def execIdot4 (h : Hdr) (d : BitVec 8) (a b x : Opnd) (ty : Ty) (sat : Bool) (sg : BitVec 2) (s : State) :
    Host.Outcome State Fault Refusal :=
  issue (.idot4 h d a b x ty sat sg) s fun c s => lanePure c s d 1 4 fun l =>
    intFin ty sat (dot4 sg (c.rd a 1 l immZ) (c.rd b 1 l immZ) (readInt ty (c.rd x 1 l immZ)))
/-- LOP3 (R333). -/
def execLop3 (h : Hdr) (d : BitVec 8) (a b x : Opnd) (ty : Ty) (t : BitVec 8) (s : State) : Host.Outcome State Fault Refusal :=
  issue (.lop3 h d a b x ty t) s fun c s => lanePure c s d ty.regs 4 fun l =>
    lop3Val ty.bits t (c.rd a ty.regs l immZ) (c.rd b ty.regs l immZ) (c.rd x ty.regs l immZ)
/-- SHL (R361). -/
def execShl (h : Hdr) (d : BitVec 8) (a b : Opnd) (ty : Ty) (s : State) : Host.Outcome State Fault Refusal :=
  issue (.shl h d a b ty) s fun c s => shiftOp c s d a b ty (shlVal ty.bits)
/-- SHR (R361). -/
def execShr (h : Hdr) (d : BitVec 8) (a b : Opnd) (ty : Ty) (s : State) : Host.Outcome State Fault Refusal :=
  issue (.shr h d a b ty) s fun c s => shiftOp c s d a b ty (shrVal ty.bits)
/-- SHRA (R361). -/
def execShra (h : Hdr) (d : BitVec 8) (a b : Opnd) (ty : Ty) (s : State) : Host.Outcome State Fault Refusal :=
  issue (.shra h d a b ty) s fun c s => shiftOp c s d a b ty (shraVal ty)
/-- ROT (R353). -/
def execRot (h : Hdr) (d : BitVec 8) (a b : Opnd) (ty : Ty) (right : Bool) (s : State) : Host.Outcome State Fault Refusal :=
  issue (.rot h d a b ty right) s fun c s => shiftOp c s d a b ty fun x n => rotVal ty.bits x n right
/-- SHF (R359). -/
def execShf (h : Hdr) (d : BitVec 8) (a b x : Opnd) (right : Bool) (s : State) : Host.Outcome State Fault Refusal :=
  issue (.shf h d a b x right) s fun c s => lanePure c s d 1 4 fun l =>
    shfVal (c.rd a 1 l immZ) (c.rd b 1 l immZ) (c.rd x 1 l immZ) right
/-- BFE (R296). -/
def execBfe (h : Hdr) (d : BitVec 8) (a b : Opnd) (ty : Ty) (s : State) : Host.Outcome State Fault Refusal :=
  issue (.bfe h d a b ty) s fun c s => shiftOp c s d a b ty (bfeVal ty)
/-- BFI (R297). -/
def execBfi (h : Hdr) (d : BitVec 8) (a b : Opnd) (ty : Ty) (s : State) : Host.Outcome State Fault Refusal :=
  issue (.bfi h d a b ty) s fun c s => lanePure c s d ty.regs 4 fun l =>
    bfiVal ty.bits (c.rd (.v d) ty.regs l immZ) (c.rd a ty.regs l immZ) (c.rd b 1 l immZ)
/-- POPC (R345). -/
def execPopc (h : Hdr) (d : BitVec 8) (a : Opnd) (ty : Ty) (s : State) : Host.Outcome State Fault Refusal :=
  issue (.popc h d a ty) s fun c s => lanePure c s d 1 4 fun l => popcVal ty.bits (c.rd a ty.regs l immZ)
/-- CLZ (R300). -/
def execClz (h : Hdr) (d : BitVec 8) (a : Opnd) (ty : Ty) (s : State) : Host.Outcome State Fault Refusal :=
  issue (.clz h d a ty) s fun c s => lanePure c s d 1 4 fun l => clzVal ty.bits (c.rd a ty.regs l immZ)
/-- BREV (R300). -/
def execBrev (h : Hdr) (d : BitVec 8) (a : Opnd) (ty : Ty) (s : State) : Host.Outcome State Fault Refusal :=
  issue (.brev h d a ty) s fun c s => lanePure c s d ty.regs 4 fun l => brevVal ty.bits (c.rd a ty.regs l immZ)
/-- PRMT (R346). -/
def execPrmt (h : Hdr) (d : BitVec 8) (a b : Opnd) (sel : BitVec 16) (s : State) : Host.Outcome State Fault Refusal :=
  issue (.prmt h d a b sel) s fun c s => lanePure c s d 1 4 fun l => prmtVal (c.rd a 1 l immZ) (c.rd b 1 l immZ) sel
/-- LEA (R332). -/
def execLea (h : Hdr) (d : BitVec 8) (a b : Opnd) (ty : Ty) (sx : Bool) (sh : BitVec 5) (s : State) :
    Host.Outcome State Fault Refusal :=
  issue (.lea h d a b ty sx sh) s fun c s => lanePure c s d ty.regs 4 fun l =>
    leaVal ty (c.rd a ty.regs l immZ) (c.rd b 1 l immZ) sx sh
/-- MOV (R337). -/
def execMov (h : Hdr) (d : BitVec 8) (a : Opnd) (ty : Ty) (s : State) : Host.Outcome State Fault Refusal :=
  issue (.mov h d a ty) s fun c s => lanePure c s d ty.regs 4 fun l => c.rd a ty.regs l immS
/-- MOVI (R338). -/
def execMovi (h : Hdr) (d : BitVec 8) (imm : BitVec 32) (s : State) : Host.Outcome State Fault Refusal :=
  issue (.movi h d imm) s fun c s => lanePure c s d 1 4 fun _ => imm.toNat

/-- R360: the lane that a lane reads from, before the test that it is selected. -/
def shflSource (mode : ShflMode) (i b : Nat) : Int :=
  match mode with
  | .idx => (b : Int)
  | .up => (i : Int) - b
  | .down => (i : Int) + b
  | .xor => ((i ^^^ b : Nat) : Int)
/-- R360: the source lane, if it is a selected lane of the wave. -/
def shflFrom (w : Nat) (sel : Lanes) (mode : ShflMode) (i b : Nat) : Option Nat :=
  let j := shflSource mode i b
  if 0 ≤ j ∧ j < w ∧ sel.getLsbD j.toNat then some j.toNat else none
/-- SHFL (R360). -/
def execShfl (h : Hdr) (d a : BitVec 8) (b : Opnd) (ty : Ty) (mode : ShflMode) (pd : BitVec 3) (s : State) :
    Host.Outcome State Fault Refusal :=
  issue (.shfl h d a b ty mode pd) s fun c s =>
    let src : Nat → Option Nat := fun l => shflFrom c.w.width c.sel mode l (c.rd b 1 l immZ)
    .ok (c.fix s 6
      (vecWrites d.toNat ty.regs (c.lanes.map fun l => (l, c.rd (.v a) ty.regs ((src l).getD l) immZ)) ++
        predWrites pd.toNat (c.lanes.map fun l => (l, (src l).isSome))))
/-- READLANE (R349). -/
def execReadlane (h : Hdr) (d : BitVec 7) (a : BitVec 8) (b : Opnd) (ty : Ty) (s : State) : Host.Outcome State Fault Refusal :=
  issue (.readlane h d a b ty) s fun c s =>
    scalarOp c s d ty.regs 6 (c.rd (.v a) ty.regs (c.rd1 b 1 immZ % c.w.width) immZ, 0)
/-- WRED (R380, R381, R200). -/
def execWred (h : Hdr) (d : Opnd) (a : BitVec 8) (ty : Ty) (rnd : Rnd) (op : AOp) (s : State) :
    Host.Outcome State Fault Refusal :=
  issue (.wred h d a ty rnd op) s fun c s =>
    if !c.any then .ok s
    else
      let r := treeNode (combine ty rnd op) (c.present a ty.regs) (Nat.log2 c.w.width) 0
      .ok (c.noteOnce (c.fix s 12 (opWrites d ty.regs c.lanes (r.1.getD (identOf ty op)))) r.2)
/-- WSCAN (R380, R381, R200). -/
def execWscan (h : Hdr) (d a : BitVec 8) (ty : Ty) (rnd : Rnd) (op : AOp) (excl : Bool) (s : State) :
    Host.Outcome State Fault Refusal :=
  issue (.wscan h d a ty rnd op excl) s fun c s =>
    let rs := c.lanes.map fun l =>
      (l, scanNodes (combine ty rnd op) (c.present a ty.regs) 6 0 (if excl then l else l + 1) (none, 0))
    .ok (c.noteOnce (c.fix s 12 (vecWrites d.toNat ty.regs (rs.map fun r => (r.1, r.2.1.getD (identOf ty op)))))
      (rs.foldl (fun e r => e ||| r.2.2) 0))
/-- SETP (R358). -/
def execSetp (h : Hdr) (d : BitVec 3) (a b : Opnd) (ty : Ty) (cond : Cond) (s : State) : Host.Outcome State Fault Refusal :=
  issue (.setp h d a b ty cond) s fun c s =>
    let imm := if ty.isInt then immInt ty else immFlt ty
    lanePred c s d 4 fun l => setpVal ty cond c.grid.rec_.ftz32 (c.rd a ty.regs l imm) (c.rd b ty.regs l imm)
/-- R344: the table bit that three predicates select. -/
def plopVal (t : BitVec 8) (a b x : Nat) : Bool := t.getLsbD (a + 2 * b + 4 * x)
/-- PLOP (R344). -/
def execPlop (h : Hdr) (d a b x : BitVec 3) (t : BitVec 8) (s : State) : Host.Outcome State Fault Refusal :=
  issue (.plop h d a b x t) s fun c s => lanePred c s d 4 fun l =>
    (plopVal t (c.rd (.p a) 1 l immZ) (c.rd (.p b) 1 l immZ) (c.rd (.p x) 1 l immZ), 0)
/-- SEL (R357). -/
def execSel (h : Hdr) (d : BitVec 8) (a b : Opnd) (ty : Ty) (p : BitVec 3) (neg : Bool) (s : State) :
    Host.Outcome State Fault Refusal :=
  issue (.sel h d a b ty p neg) s fun c s => lanePure c s d ty.regs 4 fun l =>
    if (c.rd (.p p) 1 l immZ == 1) != neg then c.rd a ty.regs l immS else c.rd b ty.regs l immS

end Sys2Proof.Machine
end

