-- ==== Sys2Proof/Machine/Commit.lean ====
section
/-! DEFINITION. COMMIT, ABORT and ACQUIRE, the reductions that a COMMIT drains, and the end of a block (02 R40; 08 R151-R171; 19 R289,
R304; 21 R351). -/

namespace Sys2Proof.Machine

/-! The points of scopes (R163). -/

/-- R163: a byte beneath the buffers: at wave scope the core's entry where it has one, else the device level. At block and cluster scope the rule does
not say whether the line meant is the home core's copy or the line at its home: the model reads the latter (DESIGN CHOICE, log entry 105). -/
def State.baseByte (s : State) (id : WaveId) (sc pa : Nat) : Byte :=
  match (if sc = 0 then s.wave id else none) with
  | some w => if (tget (s.core w.core).store (pa / 128)).isSome then s.entryByte id w.core (pa / 128) (pa % 128) else s.devRd pa
  | none => s.devRd pa
/-- A run of bytes at the point of a scope: through the buffers that stand there. -/
def State.readPoint (s : State) (id : WaveId) (space sc : Nat) (a : LaneAcc) (n : Nat) : List Byte :=
  (List.range n).map fun k =>
    match bufGet (probe space (a.va / 128) (a.pa / 128)) (a.pa % 128 + k) (s.buffers id sc) with
    | some b => b.1
    | none => s.baseByte id sc (a.pa + k)
/-- The bytes of a run that no buffer holds. -/
def State.fromLine (s : State) (id : WaveId) (space sc : Nat) (a : LaneAcc) (n : Nat) : List Nat :=
  ((List.range n).filter fun k =>
    (bufGet (probe space (a.va / 128) (a.pa / 128)) (a.pa % 128 + k) (s.buffers id sc)).isNone).map fun k => a.pa + k
/-- R163: the bytes of a run that a read takes from the device level: of those that no buffer holds, at wave scope none of a line that the core
holds. -/
def State.fromDevice (s : State) (id : WaveId) (space sc : Nat) (a : LaneAcc) (n : Nat) : List Nat :=
  if sc = 0 ∧ ((s.wave id).map fun w => (tget (s.core w.core).store (a.pa / 128)).isSome) = some true then [] else s.fromLine id space sc a n
/-- R165: a wave has read or written bytes at the device level. -/
def State.sawDevice (s : State) (id : WaveId) (pas : List Nat) : State :=
  match s.wave id with
  | some w => if w.resident then s.raiseFloor w.core id false pas else s
  | none => s
/-- R163, R168: at system scope D0 first writes to the host what it holds of a host line. -/
def State.toPoint (s : State) (sc : Nat) (a : LaneAcc) : State :=
  if sc = 4 ∧ isHost a.pa then s.flushHost fun l => l != a.pa / 128 else s
/-- A run written at the point of a scope: into the block's or cluster's buffer, where each byte keeps the child and count that it has
(log entry 14), at the home, or in host memory. -/
def State.writePoint (s : State) (id : WaveId) (space sc : Nat) (a : LaneAcc) (bs : List Byte) : State :=
  let d := runDelta space a bs 0 0
  let put : List Delta → List Delta := fun buf =>
    bufPut buf { d with bytes := d.bytes.map fun b =>
      (b.1, match bufHeld buf d b.1 with
        | some o => { o with val := b.2.val }
        | none => b.2) }
  match sc with
  | 0 => (s.unwatch id (watchOf [(a, bs.length)])).modWave id fun w => { w with wbuf := bufPut w.wbuf d }
  | 1 => s.modBlock id.grid id.block fun b => { b with buf := put b.buf }
  | 2 => s.modGroup id.grid (s.groupOf id.grid id.block) fun g => { g with buf := put g.buf }
  | 3 => s.devWriteBytes a.pa bs
  | _ => if isHost a.pa then (s.toPoint 4 a).wrBytes a.pa bs else s.devWriteBytes a.pa bs

/-- R271: whether a buffer that stands at the point of a scope holds a byte of a run in a delta found uncorrectable. -/
def badRun (bufs : List Delta) (space : Nat) (a : LaneAcc) (n : Nat) : Bool :=
  (List.range n).any fun k => match bufGet (probe space (a.va / 128) (a.pa / 128)) (a.pa % 128 + k) bufs with
    | some b => b.2
    | none => false
/-- R171, R271, R294: why a run is refused at its point: bytes of it come from a line whose home is offline or that was found
uncorrectable, or from such a delta. At wave scope a line that the core holds is read there (R153). -/
def State.refusal (s : State) (id : WaveId) (space sc : Nat) (a : LaneAcc) (n : Nat) : Option Nat :=
  let held := sc == 0 && ((s.wave id).map fun w => (tget (s.core w.core).store (a.pa / 128)).isSome) == some true
  let line := !held && !(s.fromLine id space sc a n).isEmpty
  if line && !s.lineUp (a.pa / 128) then some cOFFLINE
  else if (line && s.badLines.contains (a.pa / 128)) || badRun (s.buffers id sc) space a n then some cDATA
  else none

/-! Records (R162, R265). -/

/-- The mask of a delta's bytes. -/
def Delta.mask (d : Delta) : BitVec 128 := d.bytes.foldl (fun m b => m ||| BitVec.twoPow 128 b.1) 0
/-- The record of an operation, with what names its wave. -/
def State.opRecord (s : State) (o : Op) (type status : Nat) : FaultRecord :=
  { type := type, status := status, imprecise := true, retired := (s.wave o.wave).isNone, die := o.core.die, core := o.core.core
    slot := o.slot, split := o.split, grid := o.wave.grid, block := o.wave.block, wave := o.wave.wave, hearth := 0xFF, pc := o.pc }
/-- A COMMIT_FAULT record (R162). -/
def State.commitFault (s : State) (o : Op) (va : Nat) (m : BitVec 128) : State :=
  s.sendRecord (some o.wave.grid) { s.opRecord o 0x20 cFAULTED with addr := BitVec.ofNat 64 (128 * va), detail := m }

/-! Reductions (R160, R351). -/

/-- R160, R161, R170: the place of a record in the drain order: its wave's core in the block, then partition and slot: under .repeatable
the partition and slot rank of R102, else the slot that the wave holds at the drain, or held at its end. Of packed waves that share a slot the rule gives
no order: the model takes them by their position in it (DESIGN CHOICE, log entry 104). -/
def State.redKey (s : State) (g b : Nat) (nc : Nat) (r : RedRec) : Nat :=
  let rank := r.wave / nc
  let at_ : Nat × Nat := match s.wave ⟨g, b, r.wave⟩ with
    | some w => (w.slot, w.pos)
    | none => r.place.getD (0, 0)
  2000 * (r.wave % nc) +
    (if ((s.grid g).map fun x => x.rec_.repeatable) = some true then 300 * (rank % 6) + rank / 6 else 8 * at_.1 + at_.2)
/-- Records in the drain order; those of one wave as they were made. -/
def sortReds (key : RedRec → Nat) (l : List RedRec) : List RedRec := sortBy (fun a b => decide (key a ≤ key b)) l

/-- How a COMMIT stands: the state, and whether deltas or records faulted or met an offline die, with the events of each record drained: a
class that several records meet counts one event for each (DEDUCED, log entry 80). `conf` are the carried bytes that conflict (R156). -/
structure Carry where
  s       : State
  faulted : Bool := false
  offline : Bool := false
  events  : List Events := []
  conf    : List Nat := []

/-- R351: one record applied at its scope's point, or kept, or discarded; one whose page is marked for retranslation is translated again
(R149). Above the wave the write takes its bytes out of the recording wave's own buffer (R163). -/
def Carry.apply (o : Op) (sc : Nat) (k : Carry) (r : RedRec) : Carry :=
  let id : WaveId := ⟨o.wave.grid, o.wave.block, r.wave⟩
  let a0 : LaneAcc := { lane := 0, va := 128 * r.va + r.off, pa := 128 * r.pa + r.off }
  let n := r.ty.bytes
  let keep : Carry := { k with s := k.s.modBlock id.grid id.block fun b => { b with reds := b.reds ++ [r] } }
  let fault : Carry := { k with s := k.s.commitFault o r.va (runDelta r.space a0 (List.replicate n 0) 0 0).mask, faulted := true }
  match (if r.denied then .fail else if r.marked then k.s.seek o r.space a0.va needW else .ok a0.pa) with
  | .wait => keep
  | .fail => fault
  | .ok pa =>
    let a := { a0 with pa := pa }
    match (if r.bad then some cDATA else k.s.refusal id r.space sc a n) with
    | some code => if code = cOFFLINE then { keep with offline := true } else fault
    | none =>
      let s := k.s.toPoint sc a
      let x := combine r.ty .rn r.op (ofLe (s.readPoint id r.space sc a n)) r.value.toNat
      let s := s.writePoint id r.space sc a (leBytes n x.1)
      let s := if sc = 0 then s else s.unstoreWave id r.own a n
      { k with s := if 3 ≤ sc then s.sawDevice id ((List.range n).map fun j => pa + j) else s, events := k.events ++ [x.2] }
/-- R160: the records of one scope that a COMMIT drains, applied in the fixed order; of scope wave, its own wave's. -/
def Carry.drain (o : Op) (sc : Nat) (k : Carry) : Carry :=
  match k.s.block o.wave.grid o.wave.block with
  | none => k
  | some b =>
    let due : RedRec → Bool := fun r => r.scope == sc && (sc != 0 || r.wave == o.wave.wave)
    let l := sortReds (k.s.redKey o.wave.grid o.wave.block b.ncores) (b.reds.filter due)
    l.foldl (Carry.apply o sc) { k with s := k.s.modBlock o.wave.grid o.wave.block fun b => { b with reds := b.reds.filter fun r => !due r } }

/-! Moves (R155, R156, R162). -/

/-- Deltas moved into a buffer by a child, whose move has a count. -/
def moveInto (buf src : List Delta) (child count : Nat) : List Delta :=
  src.foldl (fun b d => bufPut b { d with bytes := d.bytes.map fun x => (x.1, { x.2 with child := child, count := count }) }) buf
/-- R271, R162: uncorrectable deltas are discarded at a move. -/
def Carry.discardBad (o : Op) (src : List Delta) (k : Carry) : Carry × List Delta :=
  ((src.filter Delta.bad).foldl (fun k d => { k with s := k.s.commitFault o d.va d.mask, faulted := true }) k, src.filter fun d => !d.bad)
/-- R156: the carried bytes that conflict with a buffer, by virtual address. -/
def conflicts (buf src : List Delta) (child count : Nat) : List Nat :=
  src.flatMap fun d => (d.bytes.filter fun b =>
    match bufHeld buf d b.1 with
    | some o => o.child != child && decide (count < o.count)
    | none => false).map fun b => 128 * d.va + b.1
/-- R155, R162, R171: one delta moves to the device level, or stays, or is discarded. -/
def Carry.toHome (o : Op) (gid : Nat) (k : Carry) (d : Delta) : Carry :=
  let keep : Carry := { k with s := k.s.modGroup o.wave.grid gid fun g => { g with buf := g.buf ++ [d] } }
  match (if d.marked then k.s.seek o d.space (128 * d.va) needW else .ok (128 * d.pa)) with
  | .wait => keep
  | .fail => { k with s := k.s.commitFault o d.va d.mask, faulted := true }
  | .ok pa =>
    if !k.s.lineUp (pa / 128) then { keep with offline := true }
    else
      let s := k.s.devWrite (pa / 128) (d.bytes.map fun b => (b.1, b.2.val))
      let pas := d.bytes.map fun b => pa + b.1
      let cores := (s.waves.filter fun x => x.1.grid == o.wave.grid && s.groupOf x.1.grid x.1.block == gid && x.2.resident).map
        fun x => x.2.core
      { k with s := (distinct cores).foldl (fun s c => s.raiseFloor c o.wave true pas) s }

/-- R159: whether an outbound access may perform: every earlier outbound access and strong load of its wave has. -/
def State.outboundReady (s : State) (o : Op) : Bool :=
  (s.earlier o).all fun x => !x.kind.outbound && (match x.kind with | .strongLoad .. => false | _ => true)

/-- A status written by a completion, where its wave has not ended (R40). -/
def State.putStatus (s : State) (id : WaveId) (r : BitVec 7) (x : Word) : State := s.modWave id fun w => w.putS r x

/-- R40: a block whose last wave has ended and which no COMMIT or ABORT in flight concerns comes to its end: what its buffers hold is
discarded, its image returns to the context area, and with the last block of a cluster group the group ends. Deltas of R171 that stay in the buffer of
a group of several blocks are discarded with the group, not with the block that moved them (DESIGN CHOICE, log entry 107). -/
def State.endBlock (s : State) (g b : Nat) : State :=
  match s.block g b, s.grid g with
  | some x, some y =>
    if (s.wavesOf g b).isEmpty && !(s.ops.any fun o => o.wave.grid == g && o.wave.block == b && !o.done) then
      let gid := b / y.rec_.group
      let s := { s with blocks := tdel s.blocks (g, b) }
      let s := s.modGrid g fun y =>
        (x.pages.foldl Grid.givePage { y with ended := y.ended ++ [b] }).give (x.image - y.rec_.ctxBase)
      if (y.rec_.groupBlocks gid).all fun k => (s.block g k).isNone then { s with groups := tdel s.groups (g, gid) } else s
    else s
  | _, _ => s

/-- Whether a delta or record that a COMMIT must translate again waits for the host (R146, R149). -/
def State.marksWait (s : State) (o : Op) (level : Nat) (snap : List Delta) : Bool :=
  let wait : Nat → Nat → Bool := fun space va => s.seek o space (128 * va) needW == .wait
  (decide (3 ≤ level) && (snap ++ s.blockBuf o.wave ++ s.clusterBuf o.wave).any fun d => d.marked && wait d.space d.va) ||
    (((s.block o.wave.grid o.wave.block).map Block.reds).getD []).any fun r =>
      decide (1 ≤ r.scope ∧ r.scope ≤ level) && r.marked && wait r.space r.va
/-- R155, R156: what a COMMIT does once its tests have passed; `nb` and `nc` are the move counts that its wave has recorded. What a drain adds
to a buffer is carried with it to the next level, and may conflict there (DEDUCED, log entry 92). -/
def Carry.moves (o : Op) (level : Nat) (snap : List Delta) (nb nc : Nat) (k : Carry) : Carry :=
  let g := o.wave.grid
  let b := o.wave.block
  let gid := k.s.groupOf g b
  let (k, snap) := k.discardBad o snap
  let k := { k with
    conf := distinct (conflicts (((k.s.block g b).map Block.buf).getD []) snap o.wave.wave nb)
    s := k.s.modBlock g b fun x => { x with buf := moveInto x.buf snap o.wave.wave (x.moves + 1), moves := x.moves + 1 } }
  let k := k.drain o 1
  if level < 2 then k
  else
    let (k, src) := k.discardBad o (((k.s.block g b).map Block.buf).getD [])
    let k := { k with
      conf := distinct (k.conf ++ conflicts (((k.s.group g gid).map Group.buf).getD []) src b nc)
      s := (k.s.modBlock g b fun x => { x with buf := [] }).modGroup g gid fun x =>
      { x with buf := moveInto x.buf src b (x.moves + 1), moves := x.moves + 1 } }
    let k := k.drain o 2
    if level < 3 then k
    else
      let (k, src) := k.discardBad o (((k.s.group g gid).map Group.buf).getD [])
      let k := src.foldl (Carry.toHome o gid) { k with s := k.s.modGroup g gid fun x => { x with buf := [] } }
      let k := k.drain o 3
      if level < 4 then k
      else
        let k := { k with s := if k.s.up 0 then k.s.flushHost fun _ => false else k.s }
        k.drain o 4
/-- R304: whether a COMMIT finds anything in the buffers to carry. What the records of scope wave have drained into the wave buffer counts, what
those of a higher scope will drain does not (log entry 92). -/
def State.carries (s : State) (o : Op) (level : Nat) (snap : List Delta) : Bool :=
  !snap.isEmpty || (decide (2 ≤ level) && !(s.blockBuf o.wave).isEmpty) || (decide (3 ≤ level) && !(s.clusterBuf o.wave).isEmpty)
/-- R155, R156, R304: the moves and drains of a COMMIT; one that finds nothing to carry meets no conflict. -/
def Carry.commit (o : Op) (level : Nat) (snap : List Delta) (nb nc : Nat) (k : Carry) : Carry :=
  let t := k.moves o level snap nb nc
  if k.s.carries o level snap then t else { t with conf := [] }

/-- COMMIT (R154, R155, R160): what the wave buffer holds leaves it with the COMMIT, its own records of scope wave drained into it before. That
this is done at the issue, so that later stores stay behind and a .STRICT one that is refused has drained them, is the model's choice (DESIGN
CHOICE, log entry 99). -/
def execCommit (h : Hdr) (st : BitVec 7) (level : BitVec 3) (strict : Option (BitVec 7)) (s : State) :
    Host.Outcome State Fault Refusal :=
  issue (.commit h st level strict) s fun c s =>
    if c.any then
      let o := c.newOp s (.commit level.toNat strict st [])
      let k := ({ s := s } : Carry).drain o 0
      let snap := ((k.s.wave c.id).map Wave.wbuf).getD []
      .ok (c.note ((k.s.modWave c.id fun w => { w with wbuf := [] }).addOp
        { o with kind := .commit level.toNat strict st snap, pre := (k.faulted, k.offline) }) (k.events.map fun e => ((lowest c.sel).getD 0, e)))
    else .ok s

/-- R155: what a COMMIT.STRICT that moves nothing leaves in the wave buffer: behind what a later COMMIT in flight has taken from it, which goes
with that one, else behind what the buffer holds. -/
def State.putBack (s : State) (o : Op) (snap : List Delta) : State :=
  let later := (s.ops.dropWhile fun x => x.id != o.id).tail.find? fun x =>
    x.wave == o.wave && !x.done && (match x.kind with | .commit .. => true | _ => false)
  match later with
  | some x => s.modOp x.id fun y => match y.kind with
    | .commit level strict st d => { y with kind := .commit level strict st (d.foldl bufPut snap) }
    | _ => y
  | none => s.modWave o.wave fun w => { w with wbuf := w.wbuf.foldl bufPut snap }
/-- COMMIT_COMPLETION (R155, R156, R160, R162, R168, R171, R304). -/
def execCommitCompletion (op : Nat) (s : State) : Host.Outcome State Fault Refusal :=
  .next (match s.op op with
    | some o => match o.kind with
      | .commit level strict st snap =>
        if !s.outboundReady o || s.marksWait o level snap then s
        else
          let g := o.wave.grid
          let b := o.wave.block
          let w := (s.wave o.wave).map fun w => (w.recBlock, w.recCluster)
          let rb := (w.map Prod.fst).getD (0, 0)
          let rc := (w.map Prod.snd).getD (0, 0)
          let s1 := s.modOp op fun o => { o with kind := .commit level strict st [] }
          let k := ({ s := s1, faulted := o.pre.1, offline := o.pre.2 } : Carry).commit o level snap rb.2 rc.2
          let cf := k.conf
          let changed := ((s.block g b).map Block.gen).getD 0 != rb.1 ||
            (decide (2 ≤ level) && ((s.group g (s.groupOf g b)).map Group.gen).getD 0 != rc.1)
          let back := s.putBack o snap
          if strict.isSome && changed then ((back.putStatus o.wave st (status cPARENT 0)).opDone op).endBlock g b
          else if strict.isSome && !cf.isEmpty then
            let low := BitVec.ofNat 64 (cf.foldl min (cf.headD 0))
            (((back.putStatus o.wave st (status cCONFLICT (sat24 cf.length))).modWave o.wave fun w =>
              match strict with | some p => w.putSPair p low | none => w).opDone op).endBlock g b
          else
            let s2 := k.s.noteLate o (k.events.map fun e => (0, e))
            let word := if k.faulted then status cFAULTED 0 else if k.offline then status cOFFLINE 0 else status cOK (sat24 cf.length)
            (((s2.putStatus o.wave st word).opDone op).respill o.wave o.core level).endBlock g b
      | _ => s
    | none => s)

/-- R157, R289: ABORT.WAVE discards every store of the wave that has not left its buffer: what the buffer holds, and what a COMMIT in flight
has taken from it and not moved (DEDUCED, log entry 66). -/
def State.dropWave (s : State) (id : WaveId) : State :=
  let drop : Op → Op := fun o => match o.kind with
    | .commit level strict st _ => if o.wave = id then { o with kind := .commit level strict st [] } else o
    | _ => o
  ({ s with ops := s.ops.map drop } : State).modWave id fun w => { w with wbuf := [] }
/-- ABORT (R157, R289): .WAVE acts at issue. -/
def execAbort (h : Hdr) (st : BitVec 7) (level : BitVec 3) (s : State) : Host.Outcome State Fault Refusal :=
  issue (.abort h st level) s fun c s =>
    if !c.any then .ok s
    else if level = 0 then
      .ok (((s.dropWave c.id).putS c.id st (status cOK 0)).trimSpill c.w.core)
    else .ok (s.addOp (c.newOp s (.abort level.toNat st)))
/-- ABORT_COMPLETION (R157, R289). -/
def execAbortCompletion (op : Nat) (s : State) : Host.Outcome State Fault Refusal :=
  .next (match s.op op with
    | some o => match o.kind with
      | .abort level st =>
        if !s.outboundReady o then s
        else
          let g := o.wave.grid
          let b := o.wave.block
          let s := if level = 1 then s.modBlock g b fun x => { x with buf := [], gen := x.gen + 1 }
            else s.modGroup g (s.groupOf g b) fun x => { x with buf := [], gen := x.gen + 1 }
          let gen := if level = 1 then ((s.block g b).map Block.gen).getD 0 else ((s.group g (s.groupOf g b)).map Group.gen).getD 0
          (((s.putStatus o.wave st (status cOK (gen.toNat % 2 ^ 24))).opDone op).trimSpill o.core).endBlock g b
      | _ => s
    | none => s)

/-- ACQUIRE (R158): the path parks until completion. -/
def execAcquire (h : Hdr) (st : BitVec 7) (level : BitVec 3) (s : State) : Host.Outcome State Fault Refusal :=
  issue (.acquire h st level) s fun c s =>
    if c.any then .ok ((s.addOp (c.newOp s (.acquire level.toNat st none false 0))).park c (.op s.nextOp)) else .ok s
/-- R158: what ACQUIRE.SYSTEM invalidates on its core and its die. -/
def State.dropHost (s : State) (cid : CoreId) : State :=
  let lines := ((s.core cid).store.filter fun x => isHost (128 * x.1)).map Prod.fst
  let s := { s with l2 := s.l2.filter fun x => x.1.1 != cid.die || !isHost (128 * x.1.2) }
  lines.foldl (fun s l =>
    if s.pinned cid l then s.modCore cid fun k =>
      { k with store := match tget k.store l with | some e => tset k.store l { e with stale := true } | none => k.store }
    else s.modCore cid fun k => k.dropLine l) s
/-- R156, R158: what an ACQUIRE leaves at its completion. -/
def State.acquired (s : State) (o : Op) (level : Nat) (st : BitVec 7) (silent : Bool) (off : BitVec 4) : State :=
  let s := if level = 4 then s.dropHost o.core else s
  if silent then
    let next := (s.ops.find? fun x => x.wave == o.wave && !x.done && (match x.openOf with | some y => !y.checked && !y.todo.isEmpty | none => false)).map Op.id
    (s.modWave o.wave fun w => if w.hold = some o.id then { w with hold := next } else w).opDone o.id
  else
    let rb := ((s.block o.wave.grid o.wave.block).map fun b => (b.gen, b.moves)).getD (0, 0)
    let rc := ((s.group o.wave.grid (s.groupOf o.wave.grid o.wave.block)).map fun g => (g.gen, g.moves)).getD (0, 0)
    let word := if off = 0 then status cOK 0 else status cOFFLINE off.toNat
    (s.modWave o.wave fun w => (({ w with recBlock := rb, recCluster := if 2 ≤ level then rc else w.recCluster }).putS st word).waitOfOp
      o.id none).opDone o.id
/-- ACQUIRE_COMPLETION (R158): once the wave's earlier strong accesses and ATOMs have performed its markers are placed; it completes when
the core has applied every update that stands before them. That of a resume follows the rebinding (R181). R170 does not say which core one that was in
flight across a pre-emption acts on: the model has it act on the core it issued on (DESIGN CHOICE, log entry 106). -/
def execAcquireCompletion (op : Nat) (s : State) : Host.Outcome State Fault Refusal :=
  .next (match s.op op with
    | some o => match o.kind with
      | .acquire level st mark silent off =>
        if ((s.earlier o).any fun x => x.kind.cpath == some .atom) || (silent && ((s.wave o.wave).map Wave.rebinding).getD false) then s
        else if level < 3 then s.acquired o level st silent off
        else
          let m := mark.getD s.seq
          if (s.core o.core).updq.any fun u => decide (u.seq ≤ m) then
            s.modOp op fun o => { o with kind := .acquire level st (some m) silent off }
          else ((s.settleL2 o.core.die fun u => decide (u.seq ≤ m)).pruneFloors o.core).acquired o level st silent off
      | _ => s
    | none => s)

end Sys2Proof.Machine
end

