-- ==== Sys2Proof/Machine/Atomic.lean ====
section
/-! DEFINITION. ATOM, RED and the strong accesses at their points (08 R159, R163-R165, R171; 15 R253; 19 R292-R294; 20 R331; 21 R350,
R351; 22 R371, R372). -/

namespace Sys2Proof.Machine

/-! ATOM. -/

/-- The offset of ATOM and RED in a lane (R292). -/
def Ctx.atomOff (c : Ctx) (off : AtomOff) (l : Nat) : Nat :=
  match off with
  | .const n => n.toNat
  | .reg r => (c.w.vreg r.toNat l).toNat
/-- R293: what an atomic writes, if it writes, and its events. -/
def atomNew (t : Ty) (op : AOp) (x b n : Nat) : Option Nat × Events :=
  match op with
  | .exch => (some b, 0)
  | .cas => (if x = b then some n else none, 0)
  | _ => let r := combine t .rn op x b; (some r.1, r.2)
/-- R163, R293, R351: whether PCIe carries an operation to host memory. -/
def pcieOk (t : Ty) (op : AOp) (red : Bool) : Bool :=
  (op == .add && t.isInt) || (!red && (op == .exch || op == .cas))
/-- The checks of ATOM and RED (R129, R130, R163). -/
def Ctx.atomTrap (c : Ctx) (w : Nat) (offs : List (Nat × Nat)) (t : Ty) (op : AOp) (scope : Nat) (red : Bool) : Option Eff :=
  match c.winTrap w offs t.bytes true with
  | some e => some e
  | none =>
    let host := maskOf ((offs.filter fun x => isHost (128 * (c.w.bind x.1 w).line)).map Prod.fst)
    if scope = 4 ∧ host ≠ 0 ∧ !pcieOk t op red then some (.trap .xlate 0 .a host 0) else none
/-- The lanes of an ATOM with their operands. -/
def Ctx.atomAccs (c : Ctx) (w : Nat) (offs : List (Nat × Nat)) (b : Nat) (t : Ty) : List LaneAcc :=
  offs.map fun x => { c.place w x.1 x.2 with
    b := BitVec.ofNat 64 (c.w.regs false b t.regs x.1), c := BitVec.ofNat 64 (c.w.regs false (b + t.regs) t.regs x.1) }
/-- R253: an order of lanes that nothing fixes (log entry 2). -/
def freeOrder (fresh key : Nat) (ls : List LaneAcc) : List LaneAcc :=
  let draw : LaneAcc → Nat := fun a => (Config.freeWord fresh (2 ^ 96 + 64 * key + a.lane)).toNat
  sortBy (fun a b => decide (draw a ≤ draw b)) ls

/-- The results of lanes: each with its value, whether it was performed, and its events. -/
abbrev LaneRes := List (Nat × Nat × Bool × Events)

/-- An access in flight at its page's present place (R149). -/
def State.nowAt (s : State) (space : Nat) (a : LaneAcc) : LaneAcc :=
  match s.walk space a.va with
  | some (pa, _) => if isHost pa then a else { a with pa := pa }
  | none => a

/-- R253, R293, R294: one lane's operation at the point of a scope. A write above the wave takes its bytes out of the wave buffer, but
for those stored since it issued (R163). -/
def atomLane (id : WaveId) (space sc : Nat) (t : Ty) (op : AOp) (watch : Watch) (st : State × LaneRes) (a : LaneAcc) : State × LaneRes :=
  let s := st.1
  let a := s.nowAt space a
  let n := t.bytes
  match s.refusal id space sc a n with
  | some code => (s, st.2 ++ [(a.lane, code, false, 0)])
  | none =>
    let seen := if 3 ≤ sc then (List.range n).map fun k => a.pa + k else s.fromDevice id space sc a n
    let s := s.toPoint sc a
    let x := ofLe (s.readPoint id space sc a n)
    let r := atomNew t op x a.b.toNat a.c.toNat
    let s := match r.1 with
      | some y =>
        let s := s.writePoint id space sc a (leBytes n y)
        if sc = 0 then s else s.unstoreWave id watch a n
      | none => s
    (s.sawDevice id seen, st.2 ++ [(a.lane, x, true, r.2)])

/-- R293, R294: the results of an ATOM written. -/
def Wave.atomWrite (w : Wave) (d : Nat) (t : Ty) (pd : BitVec 3) (rs : LaneRes) : Wave :=
  let rs := rs.filter fun r => w.lanes.getLsbD r.1
  (w.putV d t.regs (rs.map fun r => (r.1, r.2.1))).putP pd (rs.map fun r => (r.1, r.2.2.1))

/-- ATOM (R292, R293): at wave scope it performs at issue, and bytes of an uncorrectable delta trap DATA_ERROR (R271). -/
def execAtom (h : Hdr) (d : BitVec 8) (w : BitVec 4) (off : AtomOff) (b : BitVec 8) (ty : Ty) (op : AOp) (scope pd : BitVec 3)
    (s : State) : Host.Outcome State Fault Refusal :=
  issue (.atom h d w off b ty op scope pd) s fun c s =>
    let offs := c.lanes.map fun l => (l, c.atomOff off l)
    match c.atomTrap w.toNat offs ty op scope.toNat false with
    | some e => e
    | none =>
      let accs := c.atomAccs w.toNat offs b.toNat ty
      if accs.isEmpty then .ok s
      else if scope = 0 then
        let space := s.spaceOf c.id.grid
        if accs.any fun a => badRun (s.buffers c.id 0) space a ty.bytes then .trap .dataError 0 .a c.mask 0
        else
        let r := (freeOrder c.fresh 0 accs).foldl (atomLane c.id (s.spaceOf c.id.grid) 0 ty op {}) (s, [])
        .ok ((c.note (r.1.modWave c.id fun w => w.atomWrite d.toNat ty pd r.2) (r.2.map fun x => (x.1, x.2.2.2))).spill c.id)
      else
        .ok (s.addOp { c.newOp s (.atom scope.toNat accs ty op d.toNat pd) with watch := watchOf (accs.map fun a => (a, ty.bytes)) })

/-- ATOM_COMPLETION (R159, R253, R293, R294): the lanes are performed in the order that the event names, each once. -/
def execAtomCompletion (op : Nat) (order : List Nat) (s : State) : Host.Outcome State Fault Refusal :=
  .next (match s.op op with
    | some o => match o.kind with
      | .atom scope accs ty aop d pd =>
        if s.outboundReady o && order.isPerm (accs.map LaneAcc.lane) then
          let accs := order.filterMap fun l => accs.find? fun a => a.lane == l
          let r := accs.foldl (atomLane o.wave o.space scope ty aop o.watch) (s, [])
          ((((r.1.modWave o.wave fun w => w.atomWrite d ty pd r.2).noteLate o
            (r.2.map fun x => (x.1, x.2.2.2))).opDone op).spillAfter o.wave)
        else s
      | _ => s
    | none => s)

/-! RED. -/

/-- RED (R350, R351): one record for each selected lane, in ascending order. -/
def execRed (h : Hdr) (w : BitVec 4) (off : AtomOff) (b : BitVec 8) (ty : Ty) (op : AOp) (scope : BitVec 3) (s : State) :
    Host.Outcome State Fault Refusal :=
  issue (.red h w off b ty op scope) s fun c s =>
    let offs := c.lanes.map fun l => (l, c.atomOff off l)
    match c.atomTrap w.toNat offs ty op scope.toNat true with
    | some e => e
    | none =>
      if offs.isEmpty then .ok s
      else
        let rs := (c.atomAccs w.toNat offs b.toNat ty).map fun a =>
          ({ wave := c.id.wave, space := s.spaceOf c.id.grid, va := a.va / 128, pa := a.pa / 128, off := a.pa % 128, op := op, ty := ty
             scope := scope.toNat, value := a.b, own := watchOf [(a, ty.bytes)] } : RedRec)
        .ok ((s.modBlock c.id.grid c.id.block fun x => { x with reds := x.reds ++ rs }).spill c.id)

/-! Strong accesses. -/

/-- Whether two runs of bytes meet. -/
def meet (a n b m : Nat) : Bool := decide (a < b + m ∧ b < a + n)
/-- Whether a delta covers a byte of a run. -/
def Delta.covers (d : Delta) (space : Nat) (a : LaneAcc) (n : Nat) : Bool :=
  d.meets (probe space (a.va / 128) (a.pa / 128)) && d.bytes.any fun b => decide (a.pa % 128 ≤ b.1 ∧ b.1 < a.pa % 128 + n)
/-- What COMMITs in flight that a COMMIT may find performed will have put where it carries from: those of its block, and of its cluster
group for one to the device level. -/
def State.snapsBefore (s : State) (x : Op) (level : Nat) : List Delta :=
  s.ops.flatMap fun y => match y.kind with
    | .commit _ _ _ snap =>
      if !y.done && decide (y.id < x.id) && y.wave.grid == x.wave.grid && (y.wave.block == x.wave.block ||
        decide (3 ≤ level) && s.groupOf y.wave.grid y.wave.block == s.groupOf x.wave.grid x.wave.block) then snap else []
    | _ => []
/-- R163: the scope at which an access to a byte acts: system scope is device scope for device memory. -/
def scopeAt (sc pa : Nat) : Nat := if sc = 4 ∧ !isHost pa then 3 else sc
/-- R159: whether an earlier outbound access holds a strong load at a scope: it writes or discards a byte of it at a level at or
above the scope. Its bytes are looked for where their pages are now (R149). -/
def State.holdsLoad (s : State) (x : Op) (space scope : Nat) (a : LaneAcc) (n : Nat) : Bool :=
  let sc := scopeAt scope a.pa
  let at_ : Nat → LaneAcc → Bool := fun m b => meet (s.nowAt x.space b).pa m a.pa n
  match x.kind with
  | .commit level _ _ snap =>
    decide (sc ≤ level) &&
      ((snap ++ s.snapsBefore x level ++ s.blockBuf x.wave ++ (if 3 ≤ level then s.clusterBuf x.wave else [])).any (fun d => d.covers space a n) ||
        ((((s.block x.wave.grid x.wave.block).map Block.reds).getD []).any fun r =>
          decide (1 ≤ r.scope ∧ r.scope ≤ level) && at_ r.ty.bytes { lane := 0, va := 128 * r.va + r.off, pa := 128 * r.pa + r.off }))
  | .abort level _ =>
    decide (sc ≤ level) && (if level = 1 then s.blockBuf x.wave else s.clusterBuf x.wave).any fun d => d.covers space a n
  | .strongStore k accs => decide (sc ≤ k) && accs.any fun b => at_ b.bytes.length b
  | .atom k accs ty .. => decide (sc ≤ k) && accs.any (at_ ty.bytes)
  | _ => false
/-- R159, R164: whether a strong load may perform. -/
def State.loadReady (s : State) (o : Op) (sc : Nat) (accs : List LaneAcc) (n : Nat) : Bool :=
  (s.earlier o).all fun x => match x.kind with
    | .strongLoad .. => false
    | _ => accs.all fun a => !s.holdsLoad x o.space sc a n

/-- R163, R331: one lane of a strong load. -/
def loadLane (id : WaveId) (space sc n : Nat) (st : State × List (Nat × Except Nat (List Byte))) (a : LaneAcc) :
    State × List (Nat × Except Nat (List Byte)) :=
  let s := st.1
  let a := s.nowAt space a
  match s.refusal id space sc a n with
  | some code => (s, st.2 ++ [(a.lane, .error code)])
  | none =>
    let s := s.toPoint sc a
    let bs := s.readPoint id space sc a n
    (s.sawDevice id (s.fromDevice id space sc a n), st.2 ++ [(a.lane, .ok bs)])
/-- R331: a lane's registers after a strong load: its elements, or the code of its refusal, zero-extended. -/
def strongVals (t : Ty) (n : Nat) (r : Except Nat (List Byte)) : List Nat :=
  (List.range (n / t.bytes)).map fun j =>
    match r with
    | .ok bs => loadVal t (ofLe ((bs.drop (j * t.bytes)).take t.bytes))
    | .error code => if j = 0 then code else 0
/-- The registers of a strong load written. -/
def Wave.loadWrite (w : Wave) (scalar : Bool) (d : Nat) (t : Ty) (n : Nat) (rs : List (Nat × Except Nat (List Byte))) : Wave :=
  (List.range (n / t.bytes)).foldl (fun w j =>
    let vs := rs.map fun r => (r.1, (strongVals t n r.2).getD j 0)
    if scalar then
      match vs.head? with
      | some v => if t.regs = 2 then w.putSPair (BitVec.ofNat 7 (d + 2 * j)) (BitVec.ofNat 64 v.2) else w.putS (BitVec.ofNat 7 (d + j)) (BitVec.ofNat 32 v.2)
      | none => w
    else w.putV (d + j * t.regs) t.regs (vs.filter fun v => w.lanes.getLsbD v.1)) w

/-- R371, R372: the bytes of a strong store at one line: written at their point, and taken out of the wave buffer (R163), or refused with
a record. -/
def State.strongLine (s : State) (o : Op) (sc : Nat) (accs : List LaneAcc) : State :=
  match accs with
  | [] => s
  | a0 :: _ =>
    let line := a0.pa / 128
    let cells : Cells := accs.foldl (fun l a => (List.range a.bytes.length).foldl (fun (l : Cells) k => cset l (a.pa % 128 + k) (a.bytes.getD k 0)) l) []
    let own := if sc = 1 then s.blockBuf o.wave else if sc = 2 then s.clusterBuf o.wave else []
    let why := if decide (3 ≤ sc) && !s.lineUp line then some cOFFLINE
      else if (decide (3 ≤ sc) && s.badLines.contains line) || accs.any (fun a => badRun own o.space a a.bytes.length) then some cDATA else none
    match why with
    | some code =>
      s.sendRecord (some o.wave.grid) { s.opRecord o 0x20 code with
        addr := BitVec.ofNat 64 (a0.va - a0.va % 128), detail := cells.foldl (fun m b => m ||| BitVec.twoPow 128 b.1) 0 }
    | none =>
      let s := if sc = 3 ∨ (sc = 4 ∧ !isHost a0.pa) then (s.devWrite line cells).sawDevice o.wave (cells.map fun b => 128 * line + b.1)
        else accs.foldl (fun s a => s.writePoint o.wave o.space sc a a.bytes) s
      accs.foldl (fun s a => s.unstoreWave o.wave o.watch a a.bytes.length) s

/-- STRONG_ACCESS_PERFORM (R159, R163-R165, R331, R371, R372). A load at wave scope reads as a plain one does (R166). -/
def execStrongAccessPerform (op : Nat) (s : State) : Host.Outcome State Fault Refusal :=
  .next (match s.op op with
    | some o => match o.kind with
      | .strongLoad sc accs ty n scalar d =>
        let accs := accs.map (s.nowAt o.space)
        if s.loadReady o sc accs n && !(sc == 0 && accs.any fun a => s.behind o.wave o.core (a.pa / 128)) then
          let r := accs.foldl (loadLane o.wave o.space sc n) (s, [])
          (r.1.modWave o.wave fun w => w.loadWrite scalar d ty n r.2).opDone op
        else s
      | .strongStore sc accs =>
        if s.outboundReady o then
          let accs := accs.map (s.nowAt o.space)
          (((distinct (accs.map fun a => a.pa / 128)).foldl (fun s l => s.strongLine o sc (accs.filter fun a => a.pa / 128 == l)) s).opDone
            op).spillAfter o.wave
        else s
      | _ => s
    | none => s)

end Sys2Proof.Machine
end

