-- ==== Sys2Proof/Machine/Barrier.lean ====
section
/-! DEFINITION. ARRIVE, BARSYNC, WAITB, BARQ, WAITN and WAITK, arrivals that wait for outbound accesses, and the limits of waiting
instructions (02 R41-R49; 12 R211; 14 R237, R238; 19 R290, R291, R295; 22 R378). -/

namespace Sys2Proof.Machine

/-! Arrivals. -/

/-- R291: whether every outbound access that the wave has issued has performed. -/
def State.quiet (s : State) (id : WaveId) : Bool := (s.ops.filter fun o => o.wave == id && !o.done).all fun o => !o.kind.outbound
/-- R291: the trap of a count outside 1 to 36,864. -/
def countTrap (c : Ctx) (n : Nat) : Option Eff :=
  if c.any && !decide (1 ≤ n ∧ n ≤ 36864) then some (.trap .barrier 0 .b c.mask (BitVec.ofNat 64 n)) else none
/-- A status and a generation as a register pair (R43). -/
def pairOf (code : Nat) (gen : Word) : DWord := gen ++ status code 0

/-- ARRIVE (R43, R291): registered at once, or once the wave's earlier outbound accesses have performed. -/
def execArrive (h : Hdr) (d : BitVec 7) (bar : Bar) (n : Opnd) (s : State) : Host.Outcome State Fault Refusal :=
  issue (.arrive h d bar n) s fun c s =>
    let k := c.rd1 n 1 immZ
    match countTrap c k with
    | some e => e
    | none =>
      if !c.any then .ok s
      else if s.quiet c.id then
        let r := s.arrive c.id bar k c.sel c.w.stls
        .ok (r.1.modWave c.id fun w => w.putSPair d (pairOf r.2.1 r.2.2)).wake
      else .ok (s.addOp (c.newOp s (.arrival bar k c.sel d none)))

/-- BARSYNC (R43, R44, R48, R291): an arrival, then a wait for the generation joined. -/
def execBarsync (h : Hdr) (d : BitVec 7) (bar : Bar) (n : Opnd) (tmo : BitVec 5) (s : State) : Host.Outcome State Fault Refusal :=
  issue (.barsync h d bar n tmo) s fun c s =>
    let k := c.rd1 n 1 immZ
    let limit := c.now + 2 ^ tmo.toNat
    match countTrap c k with
    | some e => e
    | none =>
      if !c.any then .ok s
      else if s.quiet c.id then
        let r := s.arrive c.id bar k c.sel c.w.stls
        if r.2.1 = cOK then .ok (r.1.park c (.barrier bar r.2.2 d true limit)).wake
        else .ok (r.1.modWave c.id fun w => w.putSPair d (pairOf r.2.1 r.2.2))
      else .ok ((s.addOp (c.newOp s (.arrival bar k c.sel d (some limit)))).park c (.op s.nextOp))

/-- ARRIVAL_REGISTER (R43, R48, R291): an arrival whose wave's earlier outbound accesses have all performed. Where the limit of its BARSYNC has
run by then the end of this clock decides what it writes, whatever becomes of the wave before; the limit of one whose wave is pre-empted or
halted by a debugger is what remains of its count. -/
def execArrivalRegister (op : Nat) (s : State) : Host.Outcome State Fault Refusal :=
  .next (match s.op op with
    | some o => match o.kind with
      | .arrival bar count lanes d sync =>
        let still := ((s.wave o.wave).map fun w => !w.resident || w.dbg).getD true
        if !s.outboundClear o || o.joined.isSome then s
        else
          let r := s.arrive o.wave bar count lanes o.stls
          let now := if still then 0 else s.clkOf o.wave
          if (match sync with | some limit => decide (limit ≤ now) | none => false) && r.2.1 == cOK then (r.1.modOp op fun o => { o with joined := some r.2.2 }).wake
          else
          let put : Wave → Wave := fun w => w.putSPair d (pairOf r.2.1 r.2.2)
          (r.1.modWave o.wave fun w => match sync with
            | none => put w
            | some limit =>
              if r.2.1 = cOK then w.waitOfOp op (some (.barrier bar r.2.2 d true limit))
              else (put w).waitOfOp op none).opDone op
      | _ => s
    | none => s)

/-! Waiting instructions. -/

/-- An instruction that waits: its registers are written at once where its condition holds, else its path parks. -/
def Ctx.waitFor (c : Ctx) (s : State) (x : Wait) : Eff :=
  match s.waitResult c.id c.w x with
  | some rs => .ok (s.modWave c.id fun w => rs.foldl (fun w r => w.putS r.1 r.2) (s.observed c.id w x))
  | none => .ok (s.park c x)

/-- WAITB (R44, R378). -/
def execWaitb (h : Hdr) (d : BitVec 7) (bar : Bar) (g : Opnd) (tmo : BitVec 5) (s : State) : Host.Outcome State Fault Refusal :=
  issue (.waitb h d bar g tmo) s fun c s =>
    if !c.any then .ok s
    else if (c.grid.barEntry bar).isNone then .ok (s.putS c.id d (status cNOT_MEMBER 0))
    else c.waitFor s (.barrier bar (BitVec.ofNat 32 (c.rd1 g 1 immZ)) d false (c.now + 2 ^ tmo.toNat))
/-- WAITN (R238). -/
def execWaitn (h : Hdr) (d : BitVec 7) (n : Opnd) (path : CPath) (tmo : BitVec 5) (s : State) : Host.Outcome State Fault Refusal :=
  issue (.waitn h d n path tmo) s fun c s =>
    if c.any then c.waitFor s (.counter path (c.rd1 n 1 immZ) d (c.now + 2 ^ tmo.toNat)) else .ok s
/-- WAITK (R211). -/
def execWaitk (h : Hdr) (d : BitVec 7) (k : BitVec 3) (tmo : BitVec 5) (s : State) : Host.Outcome State Fault Refusal :=
  issue (.waitk h d k tmo) s fun c s =>
    if !c.any then .ok s
    else if (sget {} c.w.toks k.toNat).st = .empty then .ok (s.putS c.id d (status cNO_EFFECT 0))
    else c.waitFor s (.token k d (c.now + 2 ^ tmo.toNat))

/-! BARQ. -/

/-- R295: what a query writes. -/
def Barrier.query (b : Barrier) : BarqForm → Word
  | .gen => b.gen
  | .state => BitVec.ofNat 32 (b.arrived % 65536 + (if b.faulted then 65536 else 0) + (if b.lastF.isSome then 131072 else 0))
  | .pend => BitVec.ofNat 32 (min b.pend 0xFFFFFFFF)
/-- BARQ (R218, R295): a query is applied at issue; the generation shows which ones have completed. -/
def execBarq (h : Hdr) (d : BitVec 7) (bar : Bar) (form : BarqForm) (s : State) : Host.Outcome State Fault Refusal :=
  issue (.barq h d bar form) s fun c s =>
    if !c.any then .ok s
    else
      let r := if (c.grid.barEntry bar).isSome then pairOf cOK ((s.bar c.id bar).query form) else pairOf cNOT_MEMBER 0
      .ok (s.modWave c.id fun w =>
        (if form = .gen then w.observe c.id.block (s.bar c.id bar) (s.bar c.id bar).gen else w).putSPair d r)
/-- R46: a faulted instance reset. -/
def Barrier.reset (b : Barrier) : Barrier :=
  { b with lastF := some b.gen, gen := b.gen + 1, arrived := 0, lanes := 0, who := [], pend := 0, faulted := false
           marks := b.marks.filter fun m => m.1 != b.gen }
/-- BARQ.RESET (R46, R295). -/
def execBarqReset (h : Hdr) (d : BitVec 7) (bar : Bar) (s : State) : Host.Outcome State Fault Refusal :=
  issue (.barqReset h d bar) s fun c s =>
    let put : State → DWord → Eff := fun s x => .ok (s.modWave c.id fun w => w.putSPair d x)
    if !c.any then .ok s
    else match c.grid.barEntry bar with
      | none => put s (pairOf cNOT_MEMBER 0)
      | some e =>
        let x := s.bar c.id bar
        if !e.member c.id.wave then put s (pairOf cNOT_MEMBER 0)
        else if x.faulted then put (s.modBar c.id bar Barrier.reset).wake (pairOf cOK (x.gen + 1))
        else put s (pairOf cNO_EFFECT x.gen)

/-! Limits (R48). -/

/-- R48, R238: what a wait writes when its limit has run and its condition does not hold. -/
def State.timeoutResult (s : State) (id : WaveId) : Wait → Option (List (BitVec 7 × Word))
  | .barrier _ g d pair t =>
    if t ≤ s.clkOf id then some ((d, status cTIMEOUT 0) :: (if pair then [(d + 1, g)] else [])) else none
  | .token _ d t => if t ≤ s.clkOf id then some [(d, status cTIMEOUT 0)] else none
  | .counter p _ d t => if t ≤ s.clkOf id then some [(d, status cTIMEOUT (s.counter id p))] else none
  | .growth _ d t => if t ≤ s.clkOf id then some [(d, status cTIMEOUT (((s.wave id).map Wave.valloc).getD 0))] else none
  | _ => none
/-- The OPEN or REOPEN of a wave that a wait is for, if its limit has run. -/
def State.openLimit (s : State) (w : WaveId) : Wait → Option Nat
  | .op id => match (s.op id).bind Op.openOf with
    | some x => if x.deadline ≤ s.clkOf w then some id else none
    | none => none
  | _ => none
/-- The waits of a split, of its paths or handler and of its stack. -/
def Wave.waitsOf (w : Wave) (k : Nat) : List Wait :=
  (w.paths.filter fun p => p.1 == k).filterMap (fun p => p.2.2.2.wait) ++ (w.split k).stack.filterMap StackEntry.wait
/-- R48: what the BARSYNCs of a wave write at the end of the clock in which their arrivals were registered late: OK where the generation that
they joined has completed, else TIMEOUT, be the barrier faulted by then or not. -/
def State.endJoined (s : State) (id : WaveId) : State :=
  (s.ops.filter fun o => o.wave == id && !o.done).foldl (fun s o => match o.kind, o.joined with
    | .arrival bar _ _ d _, some g =>
      let x : Wait := .barrier bar g d true 0
      let code := if (s.bar id bar).test g = some cOK then cOK else cTIMEOUT
      let rs := [(d, status code 0), (d + 1, g)]
      (s.modWave id fun w => (rs.foldl (fun w r => w.putS r.1 r.2) (s.observed id w x)).waitOfOp o.id none).opDone o.id
    | _, _ => s) s
/-- WAIT_TIMEOUT (R48, R51, R127): limits of a split of a resident wave have run, at the end of a clock of its core; a condition that holds
in the same clock comes first. -/
def execWaitTimeout (p : PathId) (s : State) : Host.Outcome State Fault Refusal :=
  .next (match s.wave p.wave with
    | some w =>
      if !s.endsOf p.wave then s
      else
      let s := s.endJoined p.wave
      if w.resident && !w.dbg then
        let s := s.modWave p.wave fun w => (w.wake s p.wave).endWaits fun _ x => s.timeoutResult p.wave x
        ((w.waitsOf p.split).filterMap (s.openLimit p.wave)).foldl (fun s op => s.openExpire op) s
      else s
    | none => s)

end Sys2Proof.Machine
end

