-- ==== Sys2Proof/Machine/Engine.lean ====
section
/-! DEFINITION. The copy engine, the binning engine and ISECT (02 R45; 08 R167; 14 R230-R248; 20 R324; 19 R297, R306). -/

namespace Sys2Proof.Machine

/-! Shared. -/

/-- The lines that a run of physical bytes meets. -/
def runLines (pa n : Nat) : List Nat := (List.range ((pa % 128 + n + 127) / 128)).map fun k => pa / 128 + k
/-- R127: the lines that an operation owns are released. -/
def State.releaseAll (s : State) (op : Nat) : State := { s with owned := s.owned.filter fun x => x.2 != op }
/-- R45: bytes have landed on a transaction barrier. -/
def State.landBytes (s : State) (id : WaveId) (bar : Option Bar) (copy n : Nat) : State :=
  match bar with
  | none => s
  | some b =>
    let count := (s.grid id.grid).bind fun g => (g.barEntry b).map fun e => g.barCount e id.block
    (s.modBar id b fun x =>
      let x := { x.mark id.block (copyMark copy).1 (copyMark copy).2 with pend := x.pend - n }
      match count with | some c => x.settle c | none => x).wake
/-- R45: a transaction barrier becomes FAULTED. -/
def State.faultBar (s : State) (id : WaveId) (bar : Option Bar) : State :=
  match bar with
  | none => s
  | some b => (s.modBar id b fun x => { x with faulted := true }).wake
/-- R45: bytes are added to a transaction barrier. Whether an addition that would pass 2^48 - 1 and faults the barrier still adds its bytes R45
leaves open: the model adds none, the copy goes on, and its bytes that land are taken from what is pending down to 0 (DESIGN CHOICE, log
entry 70). -/
def State.pendBytes (s : State) (id : WaveId) (bar : Option Bar) (n : Nat) : State :=
  match bar with
  | none => s
  | some b =>
    if (s.bar id b).pend + n < 2 ^ 48 then s.modBar id b fun x => { x with pend := x.pend + n } else s.faultBar id bar

/-! CPY (R230-R236). -/

/-- CPY_XLATE. -/
def cCPY_XLATE : Nat := 0x58
/-- CPY_RANGE. -/
def cCPY_RANGE : Nat := 0x59
/-- A copy operation of a block. -/
def Block.copy (b : Block) (n : Nat) : Option CopyOp := b.copies.find? fun c => c.n == n
/-- A copy operation set. -/
def Block.setCopy (b : Block) (c : CopyOp) : Block :=
  { b with copies := (b.copies.filter fun x => x.n != c.n) ++ [c] }
/-- The slice of an operation of the n-th copy. -/
def Op.sliceOf (g b n : Nat) (o : Op) : Bool :=
  o.wave.grid == g && o.wave.block == b && !o.done && (match o.kind with | .cpy m .. => m == n | _ => false)
/-- R235: a slice stops: its barrier becomes FAULTED and a record is sent. -/
def State.stopSlice (s : State) (o : Op) (code off va : Nat) : State :=
  match o.kind with
  | .cpy n dir src dst bytes bar st done _ =>
    ((s.modOp o.id fun o => { o with kind := .cpy n dir src dst bytes bar st done (some (code, off, va)) }).faultBar o.wave bar).sendRecord
      (some o.wave.grid) { s.opRecord o 0x21 code with addr := BitVec.ofNat 64 va, detail := BitVec.ofNat 128 off }
  | _ => s

/-- R231, R235: whether a pantry span lies outside the share; an empty slice has none. -/
def spanBad (share : Nat) (dir : CpyDir) (src dst bytes : Nat) : Option Nat :=
  let off := match dir with | .mm => none | .mp => some dst | .pm => some src
  match off with
  | some a => if bytes != 0 && decide (share < a + bytes ∨ 2 ^ 32 ≤ a) then some a else none
  | none => none

/-- CPY (R231-R233): its slice joins the block's next copy operation of this wave. -/
def execCpy (h : Hdr) (d x : BitVec 7) (bar : Option Bar) (dir : CpyDir) (tmo : BitVec 5) (s : State) :
    Host.Outcome State Fault Refusal :=
  issue (.cpy h d x bar dir tmo) s fun c s =>
    if !c.any then .ok s
    else
      let n := c.w.cpys + 1
      let src := (c.sPair x).toNat
      let dst := (c.sPair (x + 2)).toNat
      let bytes := (c.s (x + 4)).toNat
      let s := s.modWave c.id fun w => { w with cpys := n }
      let k : OpKind := .cpy n dir src dst bytes bar d 0 none
      match (s.block c.id.grid c.id.block).bind fun b => b.copy n with
      | some y => if y.timedOut then c.complete s k d (status cTIMEOUT 0) else .ok ((s.addOp (c.newOp s k)).pendBytes c.id bar bytes)
      | none =>
        .ok (((s.addOp (c.newOp s k)).modBlock c.id.grid c.id.block fun b =>
          b.setCopy { n := n, limit := c.now + 2 ^ tmo.toNat }).pendBytes c.id bar bytes)

/-- The virtual addresses at which the pieces of a span of memory begin, from the first byte on. -/
def pageStarts (va n : Nat) : List (Nat × Nat) :=
  (List.range ((va % 4096 + n + 4095) / 4096)).map fun k =>
    let a := max va (4096 * (va / 4096 + k))
    (a, min (va + n) (4096 * (va / 4096 + k + 1)) - a)
/-- The lines of a span of memory whose pages translate now. -/
def destLines (at_ : Nat → Look) (va n : Nat) : List Nat :=
  (pageStarts va n).flatMap fun p => match at_ p.1 with
    | .ok pa => runLines pa p.2
    | _ => []
/-- R142, R232: the engine takes the destination lines of a slice that translate now. -/
def State.ownDest (s : State) (o : Op) (va n : Nat) : State :=
  (destLines (fun va => s.seek o o.space va needW) va n).foldl (fun s l => s.own o.id l) s
/-- R281: what MEMCPY and DATA frames ask of a destination page: a translation. The runtime writes the bytes of pages that no kernel may write
with them (log entry 72). -/
def needAny (_ : Perms) : Bool := true
/-- R142, R167: the lines of memory that a MEMCPY still writes, as their pages translate now. -/
def State.copyLines (s : State) (k : HostCopy) : List Nat :=
  match k.dst with
  | .device va => destLines (fun va => s.look k.die k.space va needAny) (va + k.done) (k.bytes - k.done)
  | .host bus => runLines (hostBase + bus + k.done) (min k.bytes (hostBase - bus) - k.done)
  | .remote _ _ _ _ => []
/-- CPY_ISSUE (R232): every member has contributed or ended. -/
def execCpyIssue (grid block n : Nat) (s : State) : Host.Outcome State Fault Refusal :=
  .next (match (s.block grid block).bind fun b => b.copy n with
    | some k =>
      if k.issued || k.timedOut || (s.wavesOf grid block).any (fun w => decide (((s.wave w).map Wave.cpys).getD 0 < n)) then s
      else
        let s := s.modBlock grid block fun b => b.setCopy { k with issued := true }
        (s.ops.filter (Op.sliceOf grid block n)).foldl (fun s o => match o.kind with
          | .cpy _ dir _ dst bytes _ _ _ none => if dir = .mp then s else s.ownDest o dst bytes
          | _ => s) s
    | none => s)
/-- CPY_COLLECTION_TIMEOUT (R233): at the end of a clock of its die the limit has run while the block is resident and the operation has not
issued. -/
def execCpyCollectionTimeout (grid block n : Nat) (s : State) : Host.Outcome State Fault Refusal :=
  .next (match (s.block grid block).bind fun b => (b.copy n).map fun k => (b, k) with
    | some (b, k) =>
      let here := ((s.group grid (s.groupOf grid block)).map Group.resident).getD false
      if k.issued || k.timedOut || !here || !(s.die b.die).ends || decide (s.clk b.die < k.limit) then s
      else
        let s := s.modBlock grid block fun b => b.setCopy { k with timedOut := true }
        (s.ops.filter (Op.sliceOf grid block n)).foldl (fun s o => match o.kind with
          | .cpy _ _ _ _ _ bar st _ _ => ((s.faultBar o.wave bar).putStatus o.wave st (status cTIMEOUT 0)).opDone o.id
          | _ => s) s
    | none => s)

/-- R234: the length of the next piece of a slice. -/
def pieceLen (dir : CpyDir) (src dst bytes done : Nat) : Nat :=
  let room : Nat → Nat := fun a => 4096 - (a + done) % 4096
  min (bytes - done) (match dir with | .mm => min (room src) (room dst) | .mp => room src | .pm => room dst)

/-- An end of a piece: physical bytes, a place in a pantry share, no translation, or one that waits for the host. -/
inductive PieceEnd where
  | at (pa : Nat)
  | share (off : Nat)
  | fail
  | wait
  deriving DecidableEq, Repr
/-- The end of a piece in memory. -/
def State.memEnd (s : State) (o : Op) (va : Nat) (need : Perms → Bool) : PieceEnd :=
  match s.seek o o.space va need with | .ok pa => .at pa | .fail => .fail | .wait => .wait
/-- The first line of a run of which `p` holds. -/
def PieceEnd.line (e : PieceEnd) (n : Nat) (p : Nat → Bool) : Option Nat :=
  match e with | .at pa => if n = 0 then none else (runLines pa n).find? p | _ => none
/-- The virtual address at which a line begins in a run. -/
def PieceEnd.vaOf (e : PieceEnd) (va line : Nat) : Nat := match e with | .at pa => va + (128 * line - pa) | _ => va

/-- R234: a piece of `len` bytes of memory as it is read, of which the step before may have read the first, `held`; and beyond the piece, as far
as `more` bytes of the slice go, the rest of the source line that it ends in, which is read in the same step. The bytes held are those of the page that
the step before translated, though a shootdown remap it in between (DESIGN CHOICE, log entry 110). -/
def State.readPiece (s : State) (held : List Byte) (pa len more : Nat) : List Byte :=
  (List.range (len + min more ((128 - (pa + len) % 128) % 128))).map fun k => if k < held.length then held.getD k 0 else s.devRd (pa + k)
/-- An end of a piece without the bytes that have been read already. -/
def PieceEnd.past (e : PieceEnd) (n : Nat) : PieceEnd := match e with | .at pa => .at (pa + n) | e => e
/-- R235: why a piece fails, but for its span of a pantry: the code and the failing address. -/
def State.pieceFault (s : State) (o : Op) (a b : PieceEnd) (av bv n : Nat) : Option (Nat × Nat) :=
  let sh := s.share o.wave.grid o.wave.block (s.shareOf o.wave)
  let h := min n o.line.length
  let x := a.past h
  let bad := x.line (n - h) fun l => s.lineUp l && s.badLines.contains l
  match bad, (match a with | .share off => (List.range n).find? (fun k => sh.bad.contains (off + k)) | _ => none) with
  | some l, _ => some (cDATA, x.vaOf (av + h) l)
  | none, some k => some (cDATA, av + k)
  | none, none =>
    match x.line (n - h) (fun l => !s.lineUp l), b.line n (fun l => !s.lineUp l) with
    | some l, _ => some (cOFFLINE, x.vaOf (av + h) l)
    | none, some l => some (cOFFLINE, b.vaOf bv l)
    | none, none => if a = .fail then some (cCPY_XLATE, av) else if b = .fail then some (cCPY_XLATE, bv) else none

/-- Whether a byte of memory lies in a span of virtual addresses, under its own or another name. -/
def State.inSpan (s : State) (space va n v pa : Nat) : Bool :=
  decide (va ≤ v ∧ v < va + n) || ((tget s.spaces space).getD []).any fun p =>
    decide (p.pa ≤ pa ∧ pa < p.pa + p.size) && decide (va ≤ p.va + (pa - p.pa) ∧ p.va + (pa - p.pa) < va + n)
/-- R234: whether the slices of a copy have met a byte of memory so far: another slice than `o` has written it or, with `rd`, any slice has
read it, `o` itself with the next `len` bytes. Without `rd`, `o` counts as a writer too. -/
def State.clash (s : State) (o : Op) (n len v pa : Nat) (rd : Bool) : Bool :=
  let p := ((s.walk o.space v).map Prod.fst).getD pa
  (s.ops.filter (Op.sliceOf o.wave.grid o.wave.block n)).any fun x => match x.kind with
    | .cpy _ dir src dst _ _ _ done _ =>
      ((!rd || x.id != o.id) && dir != .mp && s.inSpan o.space dst done v p) ||
        (rd && dir != .pm && s.inSpan o.space src (if x.id = o.id then done + len else done) v p)
    | _ => false
/-- R234: the same for a byte of a pantry share. -/
def State.clashShare (s : State) (o : Op) (n len off : Nat) (rd : Bool) : Bool :=
  (s.ops.filter (Op.sliceOf o.wave.grid o.wave.block n)).any fun x => match x.kind with
    | .cpy _ dir src dst _ _ _ done _ =>
      s.shareOf x.wave == s.shareOf o.wave &&
        (((!rd || x.id != o.id) && dir == .mp && decide (dst ≤ off ∧ off < dst + done)) ||
          (rd && dir == .pm && decide (src ≤ off ∧ off < src + (if x.id = o.id then done + len else done))))
    | _ => false
/-- R234: the same at a place of an end of a piece. -/
def State.clashAt (s : State) (o : Op) (n len : Nat) (e : PieceEnd) (va k : Nat) (rd : Bool) : Bool :=
  match e with
  | .at pa => s.clash o n len (va + k) (pa + k) rd
  | .share off => s.clashShare o n len (off + k) rd
  | _ => false
/-- The number of the copy of its block that an operation is a slice of. -/
def Op.copy (o : Op) : Nat := match o.kind with | .cpy n .. => n | _ => 0
/-- Bytes written at an end of a piece: each with its place in the piece. -/
def State.putPiece (s : State) (o : Op) (e : PieceEnd) (cells : Cells) : State :=
  match e with
  | .at pa =>
    ((distinct (cells.map fun c => (pa + c.1) / 128)).foldl (fun (s : State) l =>
      let s := if s.owned.contains (l, o.id) then s else s.own o.id l
      s.devWrite l ((cells.filter fun c => (pa + c.1) / 128 == l).map fun c => ((pa + c.1) % 128, c.2))) s)
  | .share off => s.pantryWrite o.wave.grid o.wave.block (s.shareOf o.wave) (copyMark o.copy) (cells.map fun c => (off + c.1, c.2))
  | _ => s
/-- R234, R8: a piece is copied, after which `more` bytes of its slice follow. Where slices have met, the byte takes a free value, at the
destination and, where it was written there, at the source. -/
def State.copyPiece (s : State) (o : Op) (n : Nat) (a b : PieceEnd) (av bv len more : Nat) : State :=
  let sh := s.share o.wave.grid o.wave.block (s.shareOf o.wave)
  let src := match a with
    | .at pa => s.readPiece o.line pa len more
    | .share off => (List.range len).map fun k => sget 0 sh.bytes (off + k)
    | _ => []
  let met := (List.range len).filter fun k => s.clashAt o n len a av k false
  let out := (List.range len).map fun k =>
    (k, if met.contains k || s.clashAt o n len b bv k true then Config.freeByte s.fresh k else src.getD k 0)
  let t := ((s.putPiece o a (met.map fun k => (k, Config.freeByte s.fresh k))).putPiece o b out).modOp o.id fun o => { o with line := src.drop len }
  { t with fresh := t.fresh + 1 }

/-- R229: the bytes of a pantry share of a grid. -/
def State.shareSize (s : State) (grid : Nat) : Nat := ((s.grid grid).map fun g => g.rec_.shareBytes).getD 0
/-- R45, R159, R176, R234-R236: the next piece of a slice is copied, or stops it, once the outbound accesses that any member wave issued
before its CPY have performed. A CPY_RANGE stop has no failing virtual address: its record holds the pantry offset there (DESIGN CHOICE, log
entry 85). The bytes for the pantry of a block that has been pre-empted land in its saved share (DESIGN CHOICE, log entry 102). -/
def State.landSlice (s : State) (op : Nat) : State :=
  match s.op op with
    | some o => match o.kind with
      | .cpy n dir src dst bytes bar st done none =>
        let issued := (((s.block o.wave.grid o.wave.block).bind fun b => b.copy n).map CopyOp.issued).getD false
        let clear := (s.ops.filter (Op.sliceOf o.wave.grid o.wave.block n)).all s.outboundClear
        if !issued || bytes ≤ done || !clear || !s.hasEntry o none then s
        else
          let len := pieceLen dir src dst bytes done
          let av := src + done
          let bv := dst + done
          let a := if dir = .pm then .share av else s.memEnd o av needR
          let b := if dir = .mp then .share bv else s.memEnd o bv needW
          match s.pieceFault o a b av bv len with
          | some f => s.stopSlice o f.1 done f.2
          | none =>
            if a = .wait ∨ b = .wait then s
            else match spanBad (s.shareSize o.wave.grid) dir src dst bytes with
              | some off => s.stopSlice o cCPY_RANGE 0 off
              | none => ((s.copyPiece o n a b av bv len (bytes - done - len)).modOp op fun o =>
                  { o with kind := .cpy n dir src dst bytes bar st (done + len) none }).landBytes o.wave bar n len
      | _ => s
    | none => s

/-- Whether a slice has finished or stopped. -/
def Op.sliceEnded (o : Op) : Bool :=
  match o.kind with | .cpy _ _ _ _ bytes _ _ done stop => stop.isSome || decide (bytes ≤ done) | _ => true
/-- R236: a copy's status stands in a scalar register, for the wave to read. -/
def Wave.copyStatus (w : Wave) (r n : Nat) : Wave := { w with unread := (w.unread.filter fun x => x.1 != r) ++ [(r, n)] }
/-- CPY_COMPLETION (R235): every slice has finished or stopped; all statuses land in this step. -/
def execCpyCompletion (grid block n : Nat) (s : State) : Host.Outcome State Fault Refusal :=
  .next (match (s.block grid block).bind fun b => b.copy n with
    | some k =>
      let sl := s.ops.filter (Op.sliceOf grid block n)
      if !k.issued || !sl.all Op.sliceEnded || !(sl.all fun o => s.outboundClear o) then s
      else
        let s := s.modBlock grid block fun b => { b with copies := b.copies.filter fun x => x.n != n }
        let s := sl.foldl (fun s o => match o.kind with
          | .cpy _ _ _ _ _ _ st _ stop =>
            ((s.putStatus o.wave st (match stop with
              | some (code, off, _) => status code (if code = cCPY_RANGE then 0 else sat24 (off / 256))
              | none => status cOK 0)).modWave o.wave fun w => w.copyStatus st.toNat n).releaseAll o.id
          | _ => s) s
        ((sl.map Op.id).foldl (fun s op => s.opDone op) s).endBlock grid block
    | none => s)

/-- R142, R167: whether an operation, or a copy of the host's, still writes to a line that it owns. -/
def State.stillWrites (s : State) (id line : Nat) : Bool :=
  match s.op id with
  | some o => (match o.kind with
    | .cpy _ dir _ dst bytes _ _ done stop =>
      dir != .mp && stop.isNone && (destLines (fun va => s.seek o o.space va needW) (dst + done) (bytes - done)).contains line
    | _ => true)
  | none => (s.copies.find? fun k => k.id == id).any fun k => (s.copyLines k).contains line
/-- ENGINE_LINE_RELEASE (R127, R167): the copies in flight that write nothing more to a line release it, and OPENs may take it once no operation
owns it. -/
def execEngineLineRelease (line : Nat) (s : State) : Host.Outcome State Fault Refusal :=
  .next { s with owned := s.owned.filter fun x => x.1 != line || s.stillWrites x.2 line }

/-! Bins (R239-R245). -/

/-- BIN_DESC. -/
def cBIN_DESC : Nat := 0x60
/-- BIN_RANGE. -/
def cBIN_RANGE : Nat := 0x61
/-- BIN_FULL. -/
def cBIN_FULL : Nat := 0x62
/-- BIN_XLATE. -/
def cBIN_XLATE : Nat := 0x63

/-- What an engine finds at an address: a physical address, a code that refuses it, or a wait for the host. -/
inductive Found where
  | at (pa : Nat)
  | no (code : Nat)
  | wait
  deriving DecidableEq, Repr
/-- R19, R271: the place of an aligned access of an engine; `fresh` marks a write of nothing that is read. -/
def State.find (s : State) (o : Op) (va : Nat) (need : Perms → Bool) (reads : Bool) : Found :=
  match s.seek o o.space va need with
  | .wait => .wait
  | .fail => .no cBIN_XLATE
  | .ok pa =>
    if !s.lineUp (pa / 128) then .no cOFFLINE else if reads && s.badLines.contains (pa / 128) then .no cDATA else .at pa
/-- A little-endian number at the device level. -/
def State.devNat (s : State) (pa n : Nat) : Nat := ofLe (s.devRdN pa n)

/-- R239: the descriptor at a physical address, if it is valid. -/
def State.binSet (s : State) (pa : Nat) : Option BinSet :=
  let b : BinSet := { target := s.devNat pa 8, regions := s.devNat (pa + 8) 4, cap := s.devNat (pa + 12) 4
                      area := s.devNat (pa + 16) 8, tickets := s.devNat (pa + 24) 8 }
  if b.target % 2 ^ 21 = 0 ∧ 1 ≤ b.regions ∧ b.regions ≤ 2 ^ 20 ∧ 1 ≤ b.cap ∧ b.cap ≤ 2 ^ 24 ∧ b.area % 4096 = 0 ∧
    b.tickets % 128 = 0 ∧ s.devNat (pa + 32) 32 = 0 then some b else none
/-- R239, R242, R244: the descriptor that an operation names. -/
inductive DescFound where
  | ok (b : BinSet)
  | no (code : Nat)
  | wait
  deriving DecidableEq, Repr
/-- The descriptor at a virtual address. R239 places it in device memory and gives no code for another place: the model takes one in host
memory as it stands there (DESIGN CHOICE, log entry 85). -/
def State.descAt (s : State) (o : Op) (va : Nat) (need : Perms → Bool) : DescFound :=
  if va % 64 ≠ 0 then .no cBIN_DESC
  else match s.find o va need true with
    | .wait => .wait
    | .no c => .no c
    | .at pa => match s.binSet pa with | some b => .ok b | none => .no cBIN_DESC
/-- The ticket word of a region, and a record of its bin. -/
def BinSet.ticketVa (b : BinSet) (g : Nat) : Nat := b.tickets + 4 * g
/-- The place of record `t` of bin `g`. -/
def BinSet.recordVa (b : BinSet) (g t : Nat) : Nat := b.area + (g * b.cap + t) * 16
/-- R240: the bytes of a record. -/
def recordBytes (op : AOp) (t : Ty) (off : Nat) (v : DWord) : List Byte :=
  leBytes 4 (op.code * 2 ^ 28 + t.code * 2 ^ 24 + off) ++ leBytes 4 0 ++ leBytes 8 (v.toNat % 2 ^ t.bits)
/-- R240, R244: a record read: operation, type, offset and value, unless it is invalid. -/
def readRecord (bs : List Byte) : Option (AOp × Ty × Nat × Nat) :=
  let w := ofLe (bs.take 4)
  let op := AOp.ofCode (w / 2 ^ 28)
  match Ty.ofCode (w / 2 ^ 24 % 16) with
  | none => none
  | some t =>
    let off := w % 2 ^ 21
    let okTy := t == .i32 || t == .n32 || t == .f32 || t == .i64 || t == .n64 || t == .f64
    let okOp := decide (w / 2 ^ 28 ≤ 5) && (t.isInt || op == .add || op == .min || op == .max)
    if okTy && okOp && decide (w / 2 ^ 21 % 8 = 0 ∧ ofLe ((bs.drop 4).take 4) = 0 ∧ off % t.bytes = 0) then
      some (op, t, off, ofLe ((bs.drop 8).take t.bytes))
    else none

/-- R242: the region of a lane's address, unless the lane is refused for it. -/
def BinSet.region (b : BinSet) (t : Ty) (a : LaneAcc) : Option Nat :=
  let g := (a.va - b.target) / 2 ^ 21
  if a.va < b.target ∨ b.regions ≤ g ∨ (a.va - b.target) % 2 ^ 21 % t.bytes ≠ 0 then none else some g
/-- R242: the append of one lane of a BINA: its ticket taken and its record written, or the lane refused; none while it waits for the host,
and then no ticket is taken. -/
def State.appendLane (s : State) (o : Op) (t : Ty) (op : AOp) (k : BinWalk) (a : LaneAcc) : Option (State × BinWalk) :=
  let b := k.set
  let refuse : State → Nat → Option (State × BinWalk) := fun s c => some (s, { k with codes := addNew k.codes c })
  match b.region t a with
  | none => refuse s cBIN_RANGE
  | some g => match s.find o (b.ticketVa g) needW true with
    | .wait => none
    | .no c => refuse s c
    | .at pa =>
      let n := s.devNat pa 4
      let s' := (s.own o.id (pa / 128)).devWriteBytes pa (leBytes 4 ((n + 1) % 2 ^ 32))
      if b.cap ≤ n then refuse s' cBIN_FULL
      else match s'.find o (b.recordVa g n) needW false with
        | .wait => none
        | .no c => refuse s' c
        | .at ra =>
          some ((s'.own o.id (ra / 128)).devWriteBytes ra (recordBytes op t ((a.va - b.target) % 2 ^ 21) a.b), { k with recs := k.recs ++ [ra] })
/-- R242, R252: the lane that a BINA appends next, with what its append does: which of those that do not wait for the host is a free value
(DESIGN CHOICE, log entry 2). -/
def State.nextAppend (s : State) (o : Op) (t : Ty) (op : AOp) (k : BinWalk) (accs : List LaneAcc) : Option (LaneAcc × State × BinWalk) :=
  (freeOrder s.fresh (o.id + 1) accs).findSome? fun a => (s.appendLane o t op k a).map fun r => (a, r)
/-- R242: the code of a BINA. -/
def binaCode (l : List Nat) : Nat := ([cDATA, cOFFLINE, cBIN_XLATE, cBIN_RANGE, cBIN_FULL].find? fun c => l.contains c).getD cOK

/-- R142, R242: a BINA takes its lanes' ticket words as it issues, where its reads may begin (R159) and descriptor and ticket words translate. -/
def State.ownTickets (s : State) (o : Op) (desc : Nat) (t : Ty) (accs : List LaneAcc) : State :=
  match (if s.outboundClear o then s.descAt o desc needW else .wait) with
  | .ok b => (accs.filterMap fun a => (b.region t a).bind fun g => match s.find o (b.ticketVa g) needW true with
    | .at pa => some (pa / 128)
    | _ => none).foldl (fun s l => s.own o.id l) s
  | _ => s
/-- BINA (R241, R242): its operands are read at issue. -/
def execBina (h : Hdr) (d : BitVec 7) (x : BitVec 8) (desc : BitVec 7) (ty : Ty) (op : AOp) (s : State) :
    Host.Outcome State Fault Refusal :=
  issue (.bina h d x desc ty op) s fun c s =>
    if !c.any then .ok s
    else
      let accs := c.lanes.map fun l =>
        ({ lane := l, va := c.w.regs false x.toNat 2 l, pa := 0, b := BitVec.ofNat 64 (c.w.regs false (x.toNat + 2) ty.regs l) } : LaneAcc)
      let o := c.newOp s (.bina accs (c.sPair desc).toNat ty op d none)
      .ok ((s.addOp o).ownTickets o (c.sPair desc).toNat ty accs)
/-- A binning operation ends with a status, and the lines it owns are released. -/
def State.endBin (s : State) (o : Op) (st : BitVec 7) (word : Word) : State :=
  (((s.putStatus o.wave st word).releaseAll o.id).opDone o.id).endBlock o.wave.grid o.wave.block
/-- BINA_COMPLETION (R142, R242, R252): the descriptor is read; or one lane, of no fixed place among those left (DESIGN CHOICE, log entry 2), makes its
append, so that the lanes of several BINAs may come in any order (log entry 16); or, once no lane is left, the status is written. -/
def execBinaCompletion (op : Nat) (s : State) : Host.Outcome State Fault Refusal :=
  .next (match s.op op with
    | some o => match o.kind with
      | .bina accs desc t aop st none =>
        if !s.outboundClear o || !s.hasEntry o none then s
        else match s.descAt o desc needW with
          | .wait => s
          | .no c => s.endBin o st (status c 0)
          | .ok b => s.modOp op fun o => { o with kind := .bina accs desc t aop st (some { set := b }) }
      | .bina [] _ _ _ st (some k) => s.endBin o st (status (binaCode k.codes) (sat24 k.recs.length))
      | .bina accs desc t aop st (some k) => match s.nextAppend o t aop k accs with
        | none => s
        | some (a, s', k') =>
          ({ s' with fresh := s'.fresh + 1 } : State).modOp op fun o =>
            { o with kind := .bina (accs.filter fun x => x.lane != a.lane) desc t aop st (some k') }
      | _ => s
    | none => s)

/-- BINR (R243, R244). -/
def execBinr (h : Hdr) (d desc : BitVec 7) (g : Opnd) (reset : Bool) (s : State) : Host.Outcome State Fault Refusal :=
  issue (.binr h d desc g reset) s fun c s =>
    if c.any then .ok (s.addOp (c.newOp s (.binr (c.sPair desc).toNat (c.rd1 g 1 immZ) reset d none))) else .ok s
/-- R244: a record of a bin as the engine reads it, with the code that refuses it, or 0; none where it waits for the host. A record whose own
line does not translate or may not be read is left out with BIN_XLATE, as one whose target fails is (DESIGN CHOICE, log entry 85). -/
def State.recordAt (s : State) (o : Op) (va : Nat) : Option (Nat × List Byte) :=
  match s.find o va needR true with
  | .wait => none
  | .no c => some (c, [])
  | .at ra => some (0, s.devRdN ra 16)
/-- R245: whether a record that lies at a virtual address is one of a BINA that has not completed. -/
def State.openRecord (s : State) (o : Op) (va : Nat) : Bool :=
  match s.find o va needR false with
  | .at ra => s.ops.any fun x => !x.done && (match x.kind with | .bina _ _ _ _ _ (some k) => k.recs.contains ra | _ => false)
  | _ => false
/-- BINR_REPLAY (R15, R244, steps 1 to 3, R245): in issue order, at most four at a time on a die. The records are those of this moment.
R244 names no code for the replay's own descriptor or ticket word that fails its translation: the model ends it with BIN_XLATE and detail 0,
and asks read permission, or read and write for the ticket word under .RESET (DESIGN CHOICE, log entry 85). -/
def execBinrReplay (op : Nat) (s : State) : Host.Outcome State Fault Refusal :=
  .next (match s.op op with
    | some o => match o.kind with
      | .binr desc g reset st none =>
        let mine := s.ops.filter fun x => !x.done && x.core.die == o.core.die && (match x.kind with | .binr .. => true | _ => false)
        let run := mine.filter fun x => match x.kind with | .binr _ _ _ _ r => r.isSome | _ => false
        if !s.outboundClear o || (mine.head?.map Op.id != some op && !((mine.takeWhile fun x => x.id != op).all fun x => run.contains x))
          || decide (4 ≤ run.length) || decide (1024 ≤ (s.requests o.core).length) then s
        else match s.descAt o desc needR with
          | .wait => s
          | .no c => s.endBin o st (status c 0)
          | .ok b =>
            if b.regions ≤ g then s.endBin o st (status cBIN_RANGE 0)
            else match s.find o (b.ticketVa g) (if reset then needRW else needR) true with
              | .wait => s
              | .no c => s.endBin o st (status c 0)
              | .at pa =>
                let places := (List.range (min (s.devNat pa 4) b.cap)).map fun t => b.recordVa g t
                match places.mapM (s.recordAt o) with
                | none => s
                | some recs =>
                  let t := if reset then (s.engineRecall (pa / 128)).devWriteBytes pa (leBytes 4 0) else s
                  if recs.isEmpty then t.endBin o st (status cNO_EFFECT 0)
                  else
                    let k : OpKind := .binr desc g reset st (some (b.target + g * 2 ^ 21, recs, places.any (s.openRecord o)))
                    ((t.modOp op fun o => { o with kind := k }).trimL2 o.core.die).ownDest o (b.target + g * 2 ^ 21) (2 ^ 21)
      | _ => s
    | none => s)

/-- How a replay stands: the region's bytes written so far, the records applied, the codes of those skipped, their events. -/
structure Replay where
  cells  : Cells := []
  count  : Nat := 0
  codes  : List Nat := []
  wait   : Bool := false
  events : List (Nat × Events) := []
/-- R244, step 4: one record. -/
def Replay.record (s : State) (o : Op) (region : Nat) (k : Replay) (r : Nat × List Byte) : Replay :=
  if r.1 ≠ 0 then { k with codes := addNew k.codes r.1 }
  else match readRecord r.2 with
    | none => { k with codes := addNew k.codes cBIN_RANGE }
    | some (op, ty, off, v) =>
      match s.find o (region + off) needW true with
      | .wait => { k with wait := true }
      | .no c => { k with codes := addNew k.codes c }
      | .at pa =>
        let old := ofLe ((List.range ty.bytes).map fun j => (cget k.cells (pa + j)).getD (s.devRd (pa + j)))
        let r := combine ty .rn op old v
        let bs := leBytes ty.bytes r.1
        { k with
          cells := (List.range ty.bytes).foldl (fun (l : Cells) j => cset l (pa + j) (bs.getD j 0)) k.cells
          count := k.count + 1
          events := if r.2 = 0 then k.events else k.events ++ [(0, r.2)] }
/-- R245, R8: every byte of a region that the engine may write takes a free value. -/
def State.freeRegion (s : State) (o : Op) (region : Nat) : State :=
  let t := (pageStarts region (2 ^ 21)).foldl (fun (t : State) p => match s.find o p.1 needW false with
    | .at pa => t.devWriteBytes pa ((List.range p.2).map fun k => Config.freeByte s.fresh (p.1 - region + k))
    | _ => t) s
  { t with fresh := t.fresh + 1 }
/-- BINR_COMPLETION (R244, steps 4 and 5, R245). -/
def execBinrCompletion (op : Nat) (s : State) : Host.Outcome State Fault Refusal :=
  .next (match s.op op with
    | some o => match o.kind with
      | .binr _ _ _ st (some (region, recs, spoiled)) =>
        let k := recs.foldl (Replay.record s o region) {}
        if k.wait || !s.hasEntry o none then s
        else
          let s := if spoiled then s.freeRegion o region else (distinct (k.cells.map fun c => c.1 / 128)).foldl (fun s l =>
            s.devWrite l ((k.cells.filter fun c => c.1 / 128 == l).map fun c => (c.1 % 128, c.2))) s
          let code := ([cDATA, cOFFLINE, cBIN_XLATE, cBIN_RANGE].find? fun c => k.codes.contains c).getD cOK
          (s.noteLate o k.events).endBin o st (status code (sat24 k.count))
      | _ => s
    | none => s)

/-! ISECT (R247, R248). -/

/-- R248: the loop of ISECT over two lists: the pairs found, and where it stopped. -/
def isectLoop (a b : List Nat) : Nat → Nat → Nat → List (Nat × Nat) → List (Nat × Nat) × Nat × Nat
  | 0, i, j, ps => (ps, i, j)
  | fuel + 1, i, j, ps =>
    match a[i]?, b[j]? with
    | some x, some y =>
      if x = 0xFFFFFFFF ∨ y = 0xFFFFFFFF then (ps, i, j)
      else if x = y then isectLoop a b fuel (i + 1) (j + 1) (ps ++ [(i, j)])
      else if x < y then isectLoop a b fuel (i + 1) j ps
      else isectLoop a b fuel i (j + 1) ps
    | _, _ => (ps, i, j)
/-- ISECT (R247, R248). -/
def execIsect (h : Hdr) (d a b : BitVec 8) (x : BitVec 7) (s : State) : Host.Outcome State Fault Refusal :=
  issue (.isect h d a b x) s fun c s =>
    if !c.any then .ok s
    else
      let la := c.lanes.map fun l => (c.w.vreg a.toNat l).toNat
      let lb := c.lanes.map fun l => (c.w.vreg b.toNat l).toNat
      let r := isectLoop la lb (2 * c.lanes.length) 0 0 []
      let out := (List.range c.lanes.length).map fun k =>
        (c.lanes.getD k 0, match r.1[k]? with | some p => p.1 + 65536 * p.2 | none => 0xFFFFFFFF)
      .ok (c.fix s 12 (vecWrites d.toNat 1 out ++ scaWrites x.toNat 1 (r.1.length + 256 * r.2.1 + 65536 * r.2.2)))

end Sys2Proof.Machine
end

