-- ==== Sys2Proof/Machine/Matrix.lean ====
section
/-! DEFINITION. MMA, MXLD, MXST and MXZ, the hearths' queues, their completions and quiescence (11 R199; 12 R205-R228; 21, "MMA" and
"MXLD, MXST and MXZ"). -/

namespace Sys2Proof.Machine

/-! Issue (R205, R207-R209, R213, R219). -/

/-- MX_FORMAT. -/
def cMX_FORMAT : Nat := 0x50
/-- MX_RANGE. -/
def cMX_RANGE : Nat := 0x51
/-- MX_INDEX. -/
def cMX_INDEX : Nat := 0x52
/-- MX_TILE_OWNED. -/
def cMX_TILE_OWNED : Nat := 0x53
/-- MX_XLATE. -/
def cMX_XLATE : Nat := 0x54
/-- R210: the codes that raise MATRIX. -/
def mxTraps (code : Nat) : Bool := code == cMX_FORMAT || code == cMX_RANGE || code == cMX_INDEX || code == cMX_XLATE || code == cDATA

/-- A hearth's tile. -/
def Hearth.tile (h : Hearth) (t : Nat) : Tile := h.tiles.getD t {}
/-- A hearth's tile changed. -/
def Hearth.modTile (h : Hearth) (t : Nat) (f : Tile → Tile) : Hearth := { h with tiles := lmod h.tiles t f }
/-- R218, R236: the writes that a gather of a matrix operation reads: the STLs issued on its own core, and the STLs of other cores and the
copies that its wave has observed. -/
def Ctx.observed (c : Ctx) (s : State) : List (Nat × Nat) :=
  c.w.seen ++ distinct ((s.share c.id.grid c.id.block (s.shareOf c.id)).hist.filterMap fun x => x.2.1.filter fun y => decide (y.1 < (copyMark 0).1))
/-- R208: a matrix operation issues: it is refused, or claims its tile and enters the queue. -/
def Ctx.mxIssue (c : Ctx) (s : State) (h : Nat × Nat) (k : BitVec 3) (tile : BitVec 2) (kind : MxKind) : State :=
  if ((s.hearth h).tile tile.toNat).owner.any (fun w => w != c.id) then s.setTok c.id k ⟨.faulted, status cMX_TILE_OWNED 0⟩
  else
    let op : MxOp := { id := s.nextOp, tok := k, tile := tile.toNat, kind := kind, seen := c.observed s }
    ((s.addOp (c.newOp s (.matrix k))).setTok c.id k ⟨.pending, 0⟩).modHearth h fun x =>
      { x.modTile tile.toNat fun t => { t with owner := some c.id } with queue := x.queue ++ [op] }
/-- R205, R213, R219: the common head of the four: nothing without a selected lane, MATRIX off a leader core of a block that spans
the hearth. -/
def Ctx.matrix (c : Ctx) (s : State) (body : Nat × Nat → Nat → Eff) : Eff :=
  match lowest c.sel with
  | none => .ok s
  | some l => match s.hearthOf c.id c.w with
    | none => .trap .matrix 0 .none c.mask 0
    | some h => body h l

/-- R213: whether a span of hearth addresses lies inside one share. -/
def spanOk (share ha n : Nat) : Bool := decide (ha < 2 ^ 22 ∧ ha % 2 ^ 21 + n ≤ share)
/-- R213: the first hearth address that makes MMA trap. -/
def mmaMisaligned (share a b ix fb : Nat) (idx : Bool) : Option Nat :=
  if 2 ^ 22 ≤ a ∨ a % 16 ≠ 0 then some a
  else if 2 ^ 22 ≤ b ∨ b % 16 ≠ 0 then some b
  else if idx ∧ (2 ^ 22 ≤ ix ∨ ix % 2 ≠ 0) then some ix
  else if fb % 64 ≠ 0 ∨ !spanOk share fb 64 then some fb
  else none
/-- MMA (R212, R213). -/
def execMma (h : Hdr) (k : BitVec 3) (x : BitVec 8) (semi : Semi) (idx : Bool) (tile : BitVec 2) (s : State) :
    Host.Outcome State Fault Refusal :=
  issue (.mma h k x semi idx tile) s fun c s => c.matrix s fun hk l =>
    let v : Nat → Nat := fun j => (c.w.vreg (x.toNat + j) l).toNat
    match mmaMisaligned c.grid.rec_.shareBytes (v 0) (v 1) (v 2) (v 3) idx with
    | some a => .trap .misalign 0 .none c.mask (BitVec.ofNat 64 a)
    | none => .ok (c.mxIssue s hk k tile (.mma (v 0) (v 1) (v 2) (v 3) semi idx))
/-- R219: whether an address or a stride makes MXLD or MXST trap. -/
def mxMisaligned (t : Ty) (addr stride : Nat) : Bool := decide (addr % 16 ≠ 0 ∨ stride % 16 ≠ 0 ∨ stride < 128 * t.bytes)
/-- MXLD (R219). -/
def execMxld (h : Hdr) (k : BitVec 3) (a : Opnd) (stride : BitVec 7) (ty : Ty) (tile : BitVec 2) (s : State) :
    Host.Outcome State Fault Refusal :=
  issue (.mxld h k a stride ty tile) s fun c s => c.matrix s fun hk l =>
    let addr := c.rd a 2 l immZ
    let st := (c.s stride).toNat
    if mxMisaligned ty addr st then .trap .misalign 0 .none c.mask (BitVec.ofNat 64 addr)
    else .ok (c.mxIssue s hk k tile (.ld addr st ty))
/-- MXST (R219, R221): it takes its destination lines at issue. -/
def execMxst (h : Hdr) (k : BitVec 3) (a : Opnd) (stride : BitVec 7) (ty : Ty) (rnd : Rnd) (tile : BitVec 2) (rel : Bool) (s : State) :
    Host.Outcome State Fault Refusal :=
  issue (.mxst h k a stride ty rnd tile rel) s fun c s => c.matrix s fun hk l =>
    let addr := c.rd a 2 l immZ
    let st := (c.s stride).toNat
    if mxMisaligned ty addr st then .trap .misalign 0 .none c.mask (BitVec.ofNat 64 addr)
    else
      let t := c.mxIssue s hk k tile (.st addr st ty rnd rel)
      .ok (match t.op s.nextOp with
        | some o => (List.range 128).foldl (fun t r => t.ownDest o (addr + r * st) (128 * ty.bytes)) t
        | none => t)
/-- MXZ (R219). -/
def execMxz (h : Hdr) (k : BitVec 3) (fill : Fill) (tile : BitVec 2) (rel : Bool) (s : State) : Host.Outcome State Fault Refusal :=
  issue (.mxz h k fill tile rel) s fun c s => c.matrix s fun hk _ => .ok (c.mxIssue s hk k tile (.z fill rel))

/-! Completion (R208-R210, R228). -/

/-- R208: a .REL operation has completed its tile phase. -/
def Hearth.release (h : Hearth) (wave : WaveId) (later : Bool) (t : Nat) : Hearth :=
  h.modTile t fun _ => { owner := if later then some wave else none }
/-- R208: whether a later operation of the wave in the queue names the tile. -/
def State.laterOn (s : State) (k : Nat × Nat) (m : MxOp) (wave : WaveId) : Bool :=
  (s.hearth k).queue.any fun x => x.id != m.id && x.tile == m.tile && (s.ops.any fun o => o.id == x.id && o.wave == wave)
/-- R210: the detail of a matrix status. -/
def mxDetail (operand row col : Nat) : Nat := operand + 16 * row + 4096 * col
/-- R210, R228: a matrix operation retires with a code; `at_` are operand, row, column and the failing address. -/
def State.mxDone (s : State) (k : Nat × Nat) (m : MxOp) (o : Op) (code : Nat) (at_ : Nat × Nat × Nat × Nat) : State :=
  let word := status code (if code = cOK then 0 else mxDetail at_.1 at_.2.1 at_.2.2.1)
  let s := s.modHearth k fun h => { h with queue := h.queue.filter fun x => x.id != m.id }
  let s := s.releaseAll m.id
  let r : FaultRecord :=
    { s.opRecord o Cause.matrix.code code with
      sub := code, imprecise := false, retired := false, hearth := k.2, tile := m.tile, mxop := at_.1, row := at_.2.1, col := at_.2.2.1
      addr := BitVec.ofNat 64 at_.2.2.2, detail := BitVec.ofNat 128 word.toNat }
  let s :=
    if !mxTraps code then s
    else match s.wave o.wave with
      | some w =>
        if w.lanes ≠ 0 then
          s.setWave o.wave { w with due := w.due ++ [{ cause := .matrix, record := r, trappc := 0, split := o.split, second := o.second
                                                       atNext := true }] }
        else s.sendRecord (some o.wave.grid) { r with type := 0x22, imprecise := true, retired := true }
      | none => s.sendRecord (some o.wave.grid) { r with type := 0x22, imprecise := true, retired := true }
  ((s.setTok o.wave m.tok ⟨if code = cOK then .done else .faulted, word⟩).opDone m.id).endBlock o.wave.grid o.wave.block

/-- The operation at the head of a hearth's queue. -/
def State.mxHead (s : State) (k : Nat × Nat) : Option (MxOp × Op) :=
  match (s.hearth k).queue with
  | m :: _ => (s.op m.id).map fun o => (m, o)
  | [] => none
/-- A queued operation changed. -/
def State.modMx (s : State) (k : Nat × Nat) (id : Nat) (f : MxOp → MxOp) : State :=
  s.modHearth k fun h => { h with queue := h.queue.map fun x => if x.id = id then f x else x }
/-- R224: whether an operation's wave is one that no quiescence request concerns. -/
def State.mxRuns (s : State) (o : Op) : Bool := match s.wave o.wave with | some w => w.resident && !w.dbg | none => true

/-- HEARTH_QUEUE_DISPATCH (R207, R221, R159): the operation at the head begins: an MXST reads its tile and, with .REL, releases it. -/
def execHearthQueueDispatch (die hearth : Nat) (s : State) : Host.Outcome State Fault Refusal :=
  .next (
    let k := (die, hearth)
    match s.mxHead k with
    | some (m, o) =>
      if m.begun || !s.outboundClear o || !s.mxRuns o then s
      else
        let t := (s.hearth k).tile m.tile
        match m.kind with
        | .st _ _ _ _ rel =>
          (match t.bad with
          | b :: _ => s.mxDone k m o cDATA (5, b / 128, b % 128, 0)
          | [] =>
            let later := s.laterOn k m o.wave
            (if rel then s.modHearth k fun h => h.release o.wave later m.tile else s).modMx k m.id fun x =>
              { x with begun := true, cells := some t.cells })
        | _ => s.modMx k m.id fun x => { x with begun := true }
    | none => s)

/-- MXZ_COMPLETION (R222). -/
def execMxzCompletion (die hearth : Nat) (s : State) : Host.Outcome State Fault Refusal :=
  .next (
    let k := (die, hearth)
    match s.mxHead k with
    | some (m, o) => match m.kind with
      | .z fill rel =>
        if !m.begun then s
        else
          let x : Word := match fill with | .zero => 0 | .pinf => 0x7F800000 | .ninf => 0xFF800000
          let later := s.laterOn k m o.wave
          (s.modHearth k fun h => if rel then h.release o.wave later m.tile
            else h.modTile m.tile fun t =>
              { t with cells := if x = 0 then [] else (List.range 16384).map fun j => (j, x), bad := [] }).mxDone k m o cOK (7, 0, 0, 0)
      | _ => s
    | none => s)

/-! MXLD and MXST (R220, R221). -/

/-- The runs of a row that each lie in one line: offset in the row, address and length. -/
def rowRuns (va n : Nat) : List (Nat × Nat × Nat) :=
  (List.range ((va % 128 + n + 127) / 128)).map fun j =>
    let a := max va (128 * (va / 128 + j))
    (a - va, a, min (va + n) (128 * (va / 128 + j + 1)) - a)
/-- R220: what stands in the way at one run: a wait, or a code. -/
def State.runFault (s : State) (o : Op) (va : Nat) (need : Perms → Bool) (reads : Bool) : Except (Option Nat) Nat :=
  match s.seek o o.space va need with
  | .wait => .error none
  | .fail => .error (some cMX_XLATE)
  | .ok pa =>
    if !s.lineUp (pa / 128) then .error (some cOFFLINE)
    else if reads && s.badLines.contains (pa / 128) then .error (some cDATA) else .ok pa
/-- The runs of all the rows of a tile image: row, first column and address. -/
def imageRuns (addr stride : Nat) (t : Ty) : List (Nat × Nat × Nat × Nat) :=
  (List.range 128).flatMap fun r => (rowRuns (addr + r * stride) (128 * t.bytes)).map fun x => (r, x.1 / t.bytes, x.2.1, x.2.2)
/-- Whether a run of the image waits for the host. -/
def State.imageWaits (s : State) (o : Op) (runs : List (Nat × Nat × Nat × Nat)) (need : Perms → Bool) : Bool :=
  runs.any fun x => match s.runFault o x.2.2.1 need true with | .error none => true | _ => false
/-- R220: a run of the image that fails: its code, with row, column and address. Of several the rule does not say which is reported: the model has
the first, row by row and line by line, though another wait for the host (DESIGN CHOICE, log entry 109). -/
def State.imageFault (s : State) (o : Op) (runs : List (Nat × Nat × Nat × Nat)) (need : Perms → Bool) (reads : Bool) :
    Option (Nat × Nat × Nat × Nat) :=
  runs.findSome? fun x => match s.runFault o x.2.2.1 need reads with
    | .error (some c) => some (c, x.1, x.2.1, x.2.2.1)
    | _ => none
/-- R201: the events of an FP32 value whose bits are copied: a NaN written. -/
def copyEvents (x : Nat) : Events := if (fp32.val x).isNan then evNan else 0
/-- R201, R220: an element of MXLD as an FP32 cell. -/
def mxldCell (t : Ty) (x : Nat) : Nat × Events := if t = .f32 then (x, copyEvents x) else cvtElem .f32 t .rn false false false x
/-- R201, R221: a cell as an element of MXST. -/
def mxstElem (t : Ty) (rnd : Rnd) (x : Nat) : Nat × Events := if t = .f32 then (x, copyEvents x) else cvtElem t .f32 rnd false false false x

/-- MXLD_COMPLETION (R220): every read is made, and the tile is written whole, or the operation fails. -/
def execMxldCompletion (die hearth : Nat) (s : State) : Host.Outcome State Fault Refusal :=
  .next (
    let k := (die, hearth)
    match s.mxHead k with
    | some (m, o) => match m.kind with
      | .ld addr stride ty =>
        let runs := imageRuns addr stride ty
        if !m.begun || !s.hasEntry o none then s
        else match s.imageFault o runs needR true with
          | some (c, r, col, va) => s.mxDone k m o c (6, r, col, va)
          | none =>
            if s.imageWaits o runs needR then s
            else
              let cells := runs.flatMap fun x => match s.runFault o x.2.2.1 needR true with
                | .ok pa => (List.range (x.2.2.2 / ty.bytes)).map fun j =>
                    (128 * x.1 + x.2.1 + j, mxldCell ty (s.devNat (pa + j * ty.bytes) ty.bytes))
                | .error _ => []
              let ev : Events := cells.foldl (fun e c => e ||| c.2.2) 0
              let put : Tile → Tile := fun t =>
                { t with cells := cells.foldl (fun (l : Sparse Word) c => sset 0 l c.1 (BitVec.ofNat 32 c.2.1)) [], bad := [] }
              ((s.modHearth k fun h => h.modTile m.tile put).noteEngine o ev).mxDone k m o cOK (7, 0, 0, 0)
      | _ => s
    | none => s)

/-- MXST_COMPLETION (R221, R8): the rows are written. Where a line of the image fails, `lines` tells, bit by bit in the order of
imageRuns, which of the other lines were written before. -/
def execMxstCompletion (die hearth : Nat) (lines : Nat) (s : State) : Host.Outcome State Fault Refusal :=
  .next (
    let k := (die, hearth)
    match s.mxHead k with
    | some (m, o) => match m.kind, m.cells with
      | .st addr stride ty rnd _, some cells =>
        let runs := imageRuns addr stride ty
        let fault := s.imageFault o runs needW false
        if (fault.isNone && s.imageWaits o runs needW) || !s.hasEntry o none then s
        else
          let elems := (List.range 16384).map fun j => mxstElem ty rnd (sget (0 : Word) cells j).toNat
          let ev : Events := elems.foldl (fun e c => e ||| c.2) 0
          let t := runs.zipIdx.foldl (fun s (x, i) => match s.runFault o x.2.2.1 needW false with
            | .ok pa => if fault.isNone || lines.testBit i then
                (s.engineRecall (pa / 128)).devWriteBytes pa ((List.range (x.2.2.2 / ty.bytes)).flatMap fun j =>
                  leBytes ty.bytes (elems.getD (128 * x.1 + x.2.1 + j) (0, 0)).1) else s
            | .error _ => s) s
          let t := t.noteEngine o ev
          match fault with
          | some (c, r, col, va) => t.mxDone k m o c (6, r, col, va)
          | none => t.mxDone k m o cOK (7, 0, 0, 0)
      | _, _ => s
    | none => s)

/-! MMA (R199, R214-R218). -/

/-- R214: an operand format: its type. -/
def mxFmt (code : Nat) : Option Ty :=
  match code with | 0xA => some .f16 | 0xB => some .bf16 | 0xC => some .e4m3 | 0xD => some .e5m2 | 0xE => some .q4 | _ => none
/-- The bits of an element of an operand format. -/
def mxBits (t : Ty) : Nat := match t with | .f16 | .bf16 => 16 | .q4 => 4 | _ => 8
/-- R215: K, from the wider format. -/
def mxK (a b : Ty) : Nat := match max (mxBits a) (mxBits b) with | 16 => 32 | 8 => 64 | _ => 256
/-- R214: a block length. -/
def blockLen (x : Nat) : Nat := if x = 0 then 0 else 8 * 2 ^ x
/-- A format block, validated (R214). -/
structure MxFmt where
  a  : Ty
  b  : Ty
  la : Nat
  lb : Nat
  sa : Nat
  sb : Nat
  ca : Nat
  cb : Nat
  deriving DecidableEq, Repr
/-- R214: whether a block length is valid. -/
def lenOk (t : Ty) (k x : Nat) : Bool := if t = .q4 then decide (1 ≤ x ∧ x ≤ 3 ∧ blockLen x ≤ k) else x == 0
/-- R214: whether a row stride is valid. -/
def strideOk (row x : Nat) : Bool := decide (x % 16 = 0 ∧ row ≤ x ∧ x < 2 ^ 21)
/-- R214: the format block, or the offset of its first bad field. A scale base of Q4 with nonzero bits [31:22] is no bad field: it lies beyond the
lead share, and a use of it is MX_RANGE (DEDUCED, log entry 108). -/
def readFmt (bs : List Byte) : Except Nat MxFmt :=
  let n : Nat → Nat → Nat := fun o k => ofLe ((bs.drop o).take k)
  match mxFmt (n 0 1), mxFmt (n 1 1) with
  | none, _ => .error 0
  | some _, none => .error 1
  | some a, some b =>
    let k := mxK a b
    if !lenOk a k (n 2 1) then .error 2
    else if !lenOk b k (n 3 1) then .error 3
    else if !strideOk (k * mxBits a / 8) (n 4 4) then .error 4
    else if !strideOk (128 * mxBits b / 8) (n 8 4) then .error 8
    else if a ≠ .q4 ∧ n 12 4 ≠ 0 then .error 12
    else if b ≠ .q4 ∧ n 16 4 ≠ 0 then .error 16
    else match (List.range 44).find? fun j => n (20 + j) 1 != 0 with
      | some j => .error (20 + j)
      | none => .ok { a := a, b := b, la := blockLen (n 2 1), lb := blockLen (n 3 1), sa := n 4 4, sb := n 8 4, ca := n 12 4, cb := n 16 4 }

/-- A block's shares as a hearth addresses them. -/
structure Latch where
  share : Nat
  lead  : Share
  foll  : Share
  dirty : List Nat
/-- The operand latch's view of a hearth: of each share, the STLs and copies that R218 and R236 have the operation read. -/
def State.latch (s : State) (k : Nat × Nat) (o : Op) (m : MxOp) : Latch :=
  let g := o.wave.grid
  let b := o.wave.block
  let base := ((s.block g b).map Block.base).getD 0
  { share := ((s.grid g).map fun g => g.rec_.shareBytes).getD 0, lead := (s.share g b (2 * k.2 - base)).asSeen m.seen, foll := (s.share g b (2 * k.2 + 1 - base)).asSeen m.seen
    dirty := m.dirty }
/-- A byte at a hearth address. -/
def Latch.byte (l : Latch) (ha : Nat) : Nat :=
  (sget (0 : Byte) (if ha / 2 ^ 21 % 2 = 1 then l.foll else l.lead).bytes (ha % 2 ^ 21)).toNat
/-- A little-endian number at a hearth address. -/
def Latch.num (l : Latch) (ha n : Nat) : Nat := ofLe ((List.range n).map fun j => BitVec.ofNat 8 (l.byte (ha + j)))
/-- Whether a span meets an uncorrectable byte. -/
def Latch.bad (l : Latch) (ha n : Nat) : Bool :=
  (if ha / 2 ^ 21 % 2 = 1 then l.foll else l.lead).bad.any fun o => decide (ha % 2 ^ 21 ≤ o ∧ o < ha % 2 ^ 21 + n)
/-- R218: whether a span meets a byte written while the operation was pending. -/
def Latch.soiled (l : Latch) (ha n : Nat) : Bool := l.dirty.any fun o => decide (ha ≤ o ∧ o < ha + n)
/-- R185, R215: element `j` of a packed row. -/
def Latch.elem (l : Latch) (t : Ty) (row j : Nat) : Nat :=
  match mxBits t with
  | 16 => l.num (row + 2 * j) 2
  | 8 => l.byte (row + j)
  | _ => l.byte (row + j / 2) / (if j % 2 = 1 then 16 else 1) % 16
/-- R189, R190, R215: an element's value with its scale byte. -/
def mxVal (t : Ty) (x scale : Nat) : FVal := if t = .q4 then q4Elem scale x else (tyFmt t).val x

/-- What a gather has found: the shape, each row of A and of B, and what R218 leaves open. -/
structure Gather where
  n     : Nat
  k     : Nat
  group : Nat
  a     : List (List FVal)
  b     : List (List FVal)
  open_ : Bool
  rows  : List Bool
  cols  : List Bool

/-- The scale byte's hearth address of block `b` of A row `i`. -/
def MxFmt.scaleA (f : MxFmt) (k i : Nat) : Nat := f.ca + i * (k / f.la)
/-- R215, R216: the operands of an MMA whose checks have passed. -/
def Latch.gather (l : Latch) (f : MxFmt) (a b ix fb : Nat) (idx : Bool) (rows : List Nat) : Gather :=
  let k := mxK f.a f.b
  let q : Ty → Bool := fun t => t == .q4
  let ra := k * mxBits f.a / 8
  { n := rows.length, k := k
    group := if q f.a && q f.b then min f.la f.lb else if q f.a then f.la else if q f.b then f.lb else 4
    a := rows.map fun i => (List.range k).map fun j =>
      mxVal f.a (l.elem f.a (a + i * f.sa) j) (if q f.a then l.byte (f.scaleA k i + j / f.la) else 0)
    b := (List.range k).map fun j => (List.range 128).map fun c =>
      mxVal f.b (l.elem f.b (b + j * f.sb) c) (if q f.b then l.byte (f.cb + j / f.lb * 128 + c) else 0)
    open_ := l.soiled fb 64 || (idx && l.soiled ix 2)
    rows := (List.range rows.length).map fun r =>
      let i := rows.getD r 0
      l.soiled (a + i * f.sa) ra || (q f.a && l.soiled (f.scaleA k i) (k / f.la)) || (idx && l.soiled (ix + 2 + 2 * r) 2)
    cols := (List.range 128).map fun c =>
      (List.range k).any fun j => l.soiled (b + j * f.sb + c * mxBits f.b / 8) ((mxBits f.b + 7) / 8) ||
        (q f.b && l.soiled (f.cb + j / f.lb * 128 + c) 1) }

/-- R210, R217: the checks of an MMA, in order: the failure, or the A rows that its output rows read. -/
def Latch.mmaCheck (l : Latch) (f : MxFmt) (a b ix : Nat) (idx : Bool) : Except (Nat × Nat × Nat × Nat × Nat) (List Nat) :=
  let k := mxK f.a f.b
  let ra := k * mxBits f.a / 8
  let rb := 128 * mxBits f.b / 8
  let na := k / f.la
  if idx ∧ !spanOk l.share ix 2 then .error (cMX_RANGE, 2, 0, 0, ix)
  else if idx ∧ l.bad ix 2 then .error (cDATA, 2, 0, 0, ix)
  else
    let n := if idx then l.num ix 2 else 128
    if 128 < n then .error (cMX_INDEX, 2, 0, 0, ix)
    else if idx ∧ !spanOk l.share ix (2 + 2 * n) then
      let e := ((List.range (n + 1)).find? fun e => !spanOk l.share (ix + 2 * e) 2).getD 0
      .error (cMX_RANGE, 2, e, 0, ix + 2 * e)
    else
      let rows := (List.range n).map fun r => if idx then l.num (ix + 2 + 2 * r) 2 else r
      let at_ : List (Nat × Nat) := (List.range n).map fun r => (r, rows.getD r 0)
      let ka := List.range k
      let blocks : Nat → Nat → Nat → Nat := fun base w m => ((List.range m).find? fun j => !spanOk l.share (base + j * w) w).getD 0
      let far : Option (Nat × Nat × Nat × Nat × Nat) :=
        (at_.findSome? fun x =>
          if !spanOk l.share (a + x.2 * f.sa) ra then some (cMX_RANGE, 0, x.1, 0, a + x.2 * f.sa)
          else if f.a = .q4 ∧ !spanOk l.share (f.scaleA k x.2) na then
            some (cMX_RANGE, 4, x.1, blocks (f.scaleA k x.2) 1 na, f.scaleA k x.2)
          else none).or
        ((ka.findSome? fun j => if !spanOk l.share (b + j * f.sb) rb then some (cMX_RANGE, 1, j, 0, b + j * f.sb) else none).or
        (if f.b = .q4 ∧ !spanOk l.share f.cb (k / f.lb * 128) then some (cMX_RANGE, 4, 0, blocks f.cb 128 (k / f.lb), f.cb) else none))
      let spoiled : Option (Nat × Nat × Nat × Nat × Nat) :=
        ((List.range n).findSome? fun r => if idx ∧ l.bad (ix + 2 + 2 * r) 2 then some (cDATA, 2, r + 1, 0, ix + 2 + 2 * r) else none).or
        ((at_.findSome? fun x =>
          if l.bad (a + x.2 * f.sa) ra then some (cDATA, 0, x.1, 0, a + x.2 * f.sa)
          else if f.a = .q4 then
            ((List.range na).find? fun j => l.bad (f.scaleA k x.2 + j) 1).map fun j => (cDATA, 4, x.1, j, f.scaleA k x.2 + j)
          else none).or
        ((ka.findSome? fun j => if l.bad (b + j * f.sb) rb then some (cDATA, 1, j, 0, b + j * f.sb) else none).or
        (if f.b = .q4 then
          ((List.range (k / f.lb)).find? fun j => l.bad (f.cb + j * 128) 128).map fun j => (cDATA, 4, 0, j, f.cb + j * 128)
        else none)))
      if n = 0 then .ok []
      else match far.or spoiled with
        | some e => .error e
        | none => .ok rows

/-- R199: the product of a semiring, exact; the flag tells of an invalid one. -/
def semiMul (semi : Semi) (a b : FVal) : FVal × Bool :=
  match semi with
  | .plus | .maxTimes => a.mul b
  | _ => a.add .rn b
/-- R194, R199: the smaller or the larger of two values; a NaN gives a NaN. -/
def fvMinMax (wantMax : Bool) (a b : FVal) : FVal :=
  if a.isNan then a else if b.isNan then b
  else
    let o := a.cmp b
    let aLess := o == .lt || (o == .eq && a.neg && !b.neg)
    if aLess != wantMax then a else b
/-- Whether a value counts as true under OR_AND. -/
def FVal.truthy : FVal → Bool
  | .fin _ m _ => m != 0
  | _ => true
/-- R199: one group of one cell: the new accumulator and its events. -/
def mxCell (semi : Semi) (acc : Word) (ps : List (FVal × FVal)) : Word × Events :=
  let t := fp32.val acc.toNat
  match semi with
  | .orAnd => (if t.truthy || ps.any (fun p => p.1.truthy && p.2.truthy) then 0x3F800000 else 0, 0)
  | _ =>
    let xs := ps.map fun p => semiMul semi p.1 p.2
    let r := xs.foldl (fun (a : FVal) x => match semi with
      | .plus => (a.add .rn x.1).1
      | .minPlus => fvMinMax false a x.1
      | _ => fvMinMax true a x.1) t
    let bad := xs.any Prod.snd || (semi == .plus && infClash (t :: xs.map Prod.fst))
    let y := r.write fp32 .rn false
    (BitVec.ofNat 32 y.1, y.2 ||| (if bad then evInvalid else 0))
/-- R216, R217: one group of a whole tile. -/
def mxGroup (semi : Semi) (g : Gather) (st : Sparse Word × Events) (j : Nat) : Sparse Word × Events :=
  let ks := (List.range g.group).map fun i => j * g.group + i
  (List.range g.n).foldl (fun st r =>
    let row := g.a.getD r []
    (List.range 128).foldl (fun (st : Sparse Word × Events) c =>
      let x := mxCell semi (sget 0 st.1 (128 * r + c)) (ks.map fun i => (row.getD i (.fin false 0 0), (g.b.getD i []).getD c (.fin false 0 0)))
      (sset 0 st.1 (128 * r + c) x.1, st.2 ||| x.2)) st) st
/-- R218, R8: the cells that R218 leaves open take free values. -/
def freeCells (fresh : Nat) (g : Gather) (cells : Sparse Word) : Sparse Word :=
  (List.range g.n).foldl (fun cells r => (List.range 128).foldl (fun (cells : Sparse Word) c =>
    if g.open_ || g.rows.getD r false || g.cols.getD c false then sset 0 cells (128 * r + c) (Config.freeWord fresh (128 * r + c))
    else cells) cells) cells

/-- What an MMA at the head of the queue comes to with its groups up to `upTo` fed, or all: a failure, or the new tile and the
operation as it then stands, with whether it has ended. For an error of the latch itself R217 names no operand: the model names code 7, none
(DESIGN CHOICE, log entry 67). -/
def State.mmaRun (s : State) (k : Nat × Nat) (m : MxOp) (o : Op) (upTo : Option Nat) :
    Except (Nat × Nat × Nat × Nat × Nat) (Tile × MxOp × Bool) :=
  match m.kind with
  | .mma a b ix fb semi idx =>
    let l := s.latch k o m
    let tile := (s.hearth k).tile m.tile
    match (if m.spoiled then Except.error (cDATA, 7, 0, 0, 0) else match m.fblock with
      | some bs => .ok bs
      | none => match (List.range 64).find? fun j => l.bad (fb + j) 1 with
        | some j => .error (cDATA, 3, j, 0, fb)
        | none => .ok ((List.range 64).map fun j => BitVec.ofNat 8 (l.byte (fb + j)))) with
    | .error e => .error e
    | .ok bs => match readFmt bs with
      | .error off => .error (cMX_FORMAT, 3, off, 0, fb)
      | .ok f => match l.mmaCheck f a b ix idx with
        | .error e => .error e
        | .ok rows =>
          let g := l.gather f a b ix fb idx rows
          let total := if g.n = 0 then 0 else g.k / g.group
          let last := match upTo with | some u => max m.fed (min u total) | none => total
          match (if last ≤ m.fed then none else tile.bad.find? fun c => decide (c / 128 < g.n)) with
          | some c => .error (cDATA, 5, c / 128, c % 128, 0)
          | none =>
            let r := ((List.range last).drop m.fed).foldl (mxGroup semi g) (tile.cells, m.ev)
            let cells := if last ≤ m.fed then r.1 else freeCells s.fresh g r.1
            .ok ({ tile with cells := cells }, { m with fblock := some bs, fed := last, ev := r.2 }, decide (total ≤ last))
  | _ => .ok ((s.hearth k).tile m.tile, m, false)

/-- R217: a tile in which a cell was found uncorrectable: its cells are unspecified. -/
def State.spoilTile (s : State) (k : Nat × Nat) (t : Nat) : State :=
  { (s.modHearth k fun h => h.modTile t fun x =>
      { x with cells := (List.range 16384).foldl (fun (l : Sparse Word) j => sset 0 l j (Config.freeWord s.fresh j)) [], bad := [] })
    with fresh := s.fresh + 1 }
/-- MMA_COMPLETION (R199, R216-R218). -/
def execMmaCompletion (die hearth : Nat) (s : State) : Host.Outcome State Fault Refusal :=
  .next (
    let k := (die, hearth)
    match s.mxHead k with
    | some (m, o) => match m.kind with
      | .mma .. =>
        if !m.begun then s
        else match s.mmaRun k m o none with
          | .error e => ((if e.2.1 = 5 then s.spoilTile k m.tile else s).mxDone k m o e.1 e.2)
          | .ok r =>
            let s := { s.modHearth k fun h => h.modTile m.tile fun _ => r.1 with fresh := s.fresh + 1 }
            (s.noteEngine o r.2.1.ev).mxDone k m o cOK (7, 0, 0, 0)
      | _ => s
    | none => s)

/-! Quiescence (R224-R226). -/

/-- R224, R225: the waves of a hearth that a quiescence request concerns. -/
def State.quiescing (s : State) (k : Nat × Nat) : List WaveId :=
  let h := s.hearth k
  (distinct ((h.queue.filterMap fun m => (s.op m.id).map Op.wave) ++ h.tiles.filterMap Tile.owner)).filter fun id =>
    match s.wave id with
    | some w => !w.resident || (w.dbg && h.queue.any fun m => ((s.op m.id).map Op.wave) == some id)
    | none => false
/-- An operation that a quiescent point saves: an MXST whose tile read is done is not stopped. -/
def State.saves (s : State) (ws : List WaveId) (m : MxOp) : Bool :=
  m.cells.isNone && (match s.op m.id with | some o => ws.contains o.wave | none => false)
/-- HEARTH_QUIESCENT (R224-R227): a running MMA stands after `groups` groups; what it has completed or failed by then it reports. Then
the unfinished operations of the waves concerned are suspended, and their tiles are saved: those of a wave that a debugger has halted
stay its own at the hearth (R226), those of a pre-empted one become FREE. -/
def execHearthQuiescent (die hearth groups : Nat) (s : State) : Host.Outcome State Fault Refusal :=
  .next (
    let k := (die, hearth)
    let ws := s.quiescing k
    if ws.isEmpty then s
    else
      let s := match s.mxHead k with
        | some (m, o) =>
          if m.begun && ws.contains o.wave && decide (m.fed < groups) then
            match m.kind with
            | .mma .. => match s.mmaRun k m o (some groups) with
              | .error e => (if e.2.1 = 5 then s.spoilTile k m.tile else s).mxDone k m o e.1 e.2
              | .ok r =>
                let t := { (s.modHearth k fun h => h.modTile m.tile fun _ => r.1).modMx k m.id fun _ => r.2.1 with fresh := s.fresh + 1 }
                if r.2.2 then (t.noteEngine o r.2.1.ev).mxDone k m o cOK (7, 0, 0, 0) else t
            | _ => s
          else s
        | none => s
      let out := (s.hearth k).queue.filter (s.saves ws)
      let s := out.foldl (fun s m => match s.op m.id with
        | some o => ({ s with suspended := s.suspended ++ [(o.wave, { m with begun := false, spoiled := false })] }).setTok o.wave m.tok ⟨.suspended, 0⟩
        | none => s) s
      let s := s.modHearth k fun h => { h with queue := h.queue.filter fun m => !(out.any fun x => x.id == m.id) }
      let gone : WaveId → Bool := fun id => ((s.wave id).map fun w => !w.resident).getD false
      let tiles := (List.range 4).filterMap fun t => match ((s.hearth k).tile t).owner with
        | some id => if ws.contains id then some (id, t, (s.hearth k).tile t) else none
        | none => none
      let new : List (WaveId × Nat × Tile) := tiles.filter fun (t : WaveId × Nat × Tile) => !(s.savedTiles.any fun x => x.1 == t.1 && x.2.1 == t.2.1)
      let s := ({ s with savedTiles := s.savedTiles ++ new }).modHearth k fun h =>
        (tiles.filter fun (t : WaveId × Nat × Tile) => gone t.1).foldl (fun (h : Hearth) (t : WaveId × Nat × Tile) => h.modTile t.2.1 fun _ => {}) h
      (distinct (new.map Prod.fst)).foldl (fun s id => s.spillSaved id (gone id)) s)

/-- R225, R226: the suspended operations of a wave re-enter a hearth's queue in their order, all of them at once, though the queue should then
hold more than the 8 of R207 (DESIGN CHOICE, log entry 101). -/
def State.requeue (s : State) (k : Nat × Nat) (id : WaveId) : State :=
  let mine := s.suspended.filter fun x => x.1 == id
  let s := { s with suspended := s.suspended.filter fun x => x.1 != id }
  (mine.foldl (fun s x => s.setTok id x.2.tok ⟨.pending, 0⟩) s).modHearth k fun h => { h with queue := h.queue ++ mine.map Prod.snd }
/-- R225, R226: the saved tiles of a wave return to a hearth. -/
def State.untile (s : State) (k : Nat × Nat) (id : WaveId) : State :=
  let mine := s.savedTiles.filter fun x => x.1 == id
  ({ s with savedTiles := s.savedTiles.filter fun x => x.1 != id }).modHearth k fun h =>
    mine.foldl (fun (h : Hearth) (x : WaveId × Nat × Tile) => h.modTile x.2.1 fun _ => { x.2.2 with owner := some id }) h

/-! The deferred trap. -/

/-- R228, R259: the MATRIX trap that stands first for a wave, as taken at the path that is next to issue. Which split its record names R228
leaves open: the model names the split that takes the trap, beside the PC of the issuing instruction (DESIGN CHOICE, log entry 84). -/
def Wave.matrixDue (w : Wave) : Option Trap :=
  match w.due.find? fun t => t.cause == .matrix, w.nextPath with
  | some t, some (k, second) =>
    some { t with record := { t.record with split := k }, trappc := ((w.split k).path second).pc, split := k, second := second, atNext := false }
  | _, _ => none
/-- MATRIX_TRAP (R228): before the wave's next issue outside handler mode. -/
def execMatrixTrap (w : WaveId) (s : State) : Host.Outcome State Fault Refusal :=
  .next (match s.wave w with
    | some x =>
      if x.runs && x.hand.isNone then
        match x.matrixDue with
        | some t => (s.setWave w { x with due := x.due.eraseP fun t => t.cause == .matrix }).takeTrap w t
        | none => s
      else s
    | none => s)

end Sys2Proof.Machine
end

