-- ==== Sys2Proof/Machine/Rpc.lean ====
section
/-! DEFINITION. Replies of the service quads: into a session's reply ring, held while it is full, or to a peer (18 R278, R279,
R283). -/

namespace Sys2Proof.Machine

/-- R277: a slot's frame has drawn its reply. -/
def State.freeSlot (s : State) (c : Option Caller) : State :=
  match c with
  | some (.slot n) => { s with frames := s.frames.filter fun f => f.slot != n }
  | _ => s
/-- A frame sent to a peer. -/
def State.sendPeer (s : State) (addr port : Nat) (header bytes : List Byte) : State :=
  { s with peerOut := s.peerOut ++ [{ id := s.nextOp, addr := addr, port := port, udp := s.udpPort, header := header, bytes := bytes }]
           nextOp := s.nextOp + 1 }
/-- R279, R283: a reply is delivered: to the peer that called, into the session's reply ring, or to the management session. A full
ring holds it, and those behind it. -/
def State.deliver (s : State) (r : Reply) : State :=
  match r.caller, (tget s.sessions r.session).bind Session.rings, (tget s.sessions r.session).bind Session.peer with
  | some (.peer a p _ _), _, _ => s.sendPeer a p (ringEntry 1 true 0 r.status r.tag []) r.result
  | _, some (rr, er), _ =>
    if s.ringFull rr || s.heldReplies.any (fun h => h.session == r.session) then { s with heldReplies := s.heldReplies ++ [r] }
    else
      let x := s.ringWrite rr 1 r.status r.tag r.result
      ({ x.1 with sessions := match tget x.1.sessions r.session with
          | some k => tset x.1.sessions r.session { k with rings := some (x.2, er) }
          | none => x.1.sessions }).freeSlot r.caller
  | _, none, some (a, p) => s.sendPeer a p (ringEntry 1 true 0 r.status r.tag []) r.result
  | _, none, none => ({ s with mgmt := s.mgmt ++ [r] }).freeSlot r.caller
/-- R278: the one reply of a call, kept for a repeat of its sequence number while that is the session's last. -/
def State.answer (s : State) (r : Reply) : State :=
  ({ s with sessions := match tget s.sessions r.session with
      | some x => tset s.sessions r.session (if x.fseq = r.seq then { x with last := some r } else x)
      | none => s.sessions }).deliver r
/-- REPLY_RING_SPACE (R279): the host has consumed entries, and replies held for the session's ring are written while it has space. -/
def State.drainReplies (s : State) (session : Nat) : Nat → State
  | 0 => s
  | n + 1 =>
    match s.heldReplies.find? fun r => r.session == session with
    | none => s
    | some r =>
      if ((tget s.sessions session).bind Session.rings).any fun x => s.ringFull x.1 then s
      else
        let rest := s.heldReplies.erase r
        let behind := rest.filter fun r => r.session == session
        let s := ({ s with heldReplies := rest.filter fun r => r.session != session }).deliver r
        ({ s with heldReplies := s.heldReplies ++ behind }).drainReplies session n
/-- R280: a session whose close is asked for is freed once its launches have retired and its copies have answered; its reply is sent first,
when its ring has space. -/
def State.closeIfDone (s : State) (session : Nat) : State :=
  match tget s.sessions session with
  | some x => match x.closing with
    | some r =>
      if x.launches = 0 && !(x.rings.any fun k => s.ringFull k.1) && !(s.heldReplies.any fun h => h.session == session) &&
          !(s.copies.any fun k => k.reply.session == session) then
        let s := s.deliver r
        { s with sessions := tdel s.sessions session }
      else s
    | none => s
  | none => s
/-- REPLY_RING_SPACE (R279). -/
def execReplyRingSpace (session : Nat) (s : State) : Host.Outcome State Fault Refusal :=
  .next ((s.drainReplies session s.heldReplies.length).closeIfDone session)

end Sys2Proof.Machine
end

