-- ==== Sys2Proof/Machine/Launch.lean ====
section
/-! DEFINITION. Launch records and their acceptance, dependences, admission, pre-emption, resume, carving, LAUNCH, VREGS and register
reservations, the ends of waves and grids (02 R37-R40; 05 R93-R116; 06 R135, R141; 09 R181; 17 R264, R268-R270; 20 R326, R327; 22
R376, R377). -/

namespace Sys2Proof.Machine

/-! Launch records (R94-R97). -/

/-- A field of a record's bytes. -/
def field (bs : List Byte) (off n : Nat) : Nat := ofLe ((bs.drop off).take n)
/-- R95: a range entry, if it is valid. -/
def rangeEntry (x : Nat) : Option RangeEntry :=
  let len := x / 2 ^ 53
  let unit := 256 * 16 ^ (x / 2 ^ 50 % 8)
  let mode := x / 2 ^ 48 % 4
  let lo := x % 2 ^ 48 * 256
  let hi := lo + len * unit
  if 1 ≤ len ∧ mode ≠ 0 ∧ hi ≤ 2 ^ 56 then some { lo := lo, hi := hi, rd := mode % 2 == 1, wr := decide (2 ≤ mode) } else none
/-- R41: whether a barrier's number is one of its level. -/
def Bar.ok (b : Bar) : Bool :=
  decide (b.num.toNat < match b.level.toNat with | 0 => 4 | 1 => 16 | 2 => 8 | _ => 4)
/-- R96: a barrier entry, if it is valid; `nw` waves in a block, `nb` blocks in the grid, `ng` in a full cluster group. -/
def barEntry (x w nw nb ng : Nat) : Option BarEntry :=
  let b : Bar := ⟨BitVec.ofNat 2 (x / 64), BitVec.ofNat 6 x⟩
  let e : BarEntry := { bar := b, lanes := x / 2 ^ 34 % 128, first := x / 2 ^ 8 % 8192, last := x / 2 ^ 21 % 8192 }
  let count := (e.last - e.first + 1) * (match b.level.toNat with | 2 => ng | 3 => nb | _ => 1)
  let lanes := if b.level = 0 then decide (1 ≤ e.lanes ∧ e.lanes ≤ w) else e.lanes == 0
  if x / 2 ^ 41 % 128 = 0 ∧ lanes ∧ e.first ≤ e.last ∧ e.last < nw ∧ count ≤ 36864 ∧ b.ok then some e else none

/-- R94: the record's fields as they stand, before its entries. -/
def rawRecord (bs : List Byte) (entry : Option DWord) : Record :=
  let f := field bs
  { entry := entry.getD (BitVec.ofNat 64 (f 0 8)), handler := BitVec.ofNat 64 (f 8 8), ctxBase := f 0x10 8, ctxLen := f 0x18 4
    gx := f 0x1C 4, gy := f 0x20 2, gz := f 0x22 2, threads := f 0x24 2, width := f 0x26 1, vregs := 8 * f 0x27 1
    sregs := 8 * f 0x28 1, rcache := f 0x29 1, pantry := f 0x2A 1, cls := f 0x2B 1 % 4, cores := 2 ^ (f 0x2B 1 / 4 % 4)
    group := f 0x2B 1 / 16 % 8 + 1, share := f 0x2C 1, repeatable := f 0x2D 1 % 2 == 1, check := f 0x2D 1 / 2 % 2 == 1
    ftz32 := f 0x2D 1 / 4 % 2 == 1, ftz16 := f 0x2D 1 / 8 % 2 == 1, arg := BitVec.ofNat 64 (f 0x30 8), ranges := [], bars := [] }
/-- The first offset whose check does not hold. -/
def firstBad : List (Nat × Bool) → Option Nat
  | [] => none
  | (o, ok) :: t => if ok then firstBad t else some o
/-- R94-R96: the record, or the offset of its first failing field. Where the width at 0x26 is itself invalid, the threads at 0x24 cannot be
a multiple of it or not: the model names 0x26 (DESIGN CHOICE, log entry 69). Of two entries that name one barrier the later one is the failing
one (DESIGN CHOICE, log entry 98). -/
def parseRecord (bs : List Byte) (entry : Option DWord) : Except Nat Record :=
  let f := field bs
  let r := rawRecord bs entry
  let widthOk := r.width == 8 || r.width == 16 || r.width == 32 || r.width == 64
  let nb := f 0x2E 1
  let nr := f 0x2F 1
  let ranges := (List.range 16).map fun i => (0x38 + 8 * i, f (0x38 + 8 * i) 8, decide (i < nr))
  let bars := (List.range 12).map fun i => (0xB8 + 6 * i, f (0xB8 + 6 * i) 6, decide (i < nb))
  let bar : Nat → Option BarEntry := fun x => barEntry x r.width r.nwaves r.nblocks r.group
  let twice : Nat → Nat → Bool := fun o x => bars.any fun b => b.2.2 && decide (b.1 < o) && b.2.1 % 256 == x % 256
  match firstBad ([(0x00, entry.isSome || pcOk r.entry), (0x08, pcOk r.handler), (0x10, decide (r.ctxBase % 4096 = 0 ∧ r.ctxBase < 2 ^ 56)), (0x18, decide (1 ≤ r.ctxLen)),
      (0x1C, decide (1 ≤ r.gx ∧ r.nblocks ≤ 2 ^ 32 - 1)), (0x20, decide (1 ≤ r.gy)), (0x22, decide (1 ≤ r.gz)),
      (0x24, decide (8 ≤ r.threads ∧ r.threads ≤ 36864) && (!widthOk || r.threads % r.width == 0)), (0x26, widthOk),
      (0x27, decide (8 ≤ r.vregs ∧ r.vregs ≤ 256)), (0x28, decide (8 ≤ r.sregs ∧ r.sregs ≤ 128)),
      (0x29, decide (3 ≤ r.rcache ∧ r.rcache ≤ 9)), (0x2A, decide (r.pantry ≤ 6 ∧ r.rcache + r.pantry ≤ 9)),
      (0x2B, decide (r.cores ≤ 4 ∧ f 0x2B 1 < 128 ∧ r.cores * r.group ≤ 8)), (0x2C, decide (r.share ≤ 192 ∧ r.share ≤ 32 * r.pantry)),
      (0x2D, decide (f 0x2D 1 < 16)), (0x2E, decide (nb ≤ 12)), (0x2F, decide (nr ≤ 16))]
    ++ (ranges.map fun x => (x.1, if x.2.2 then (rangeEntry x.2.1).isSome else x.2.1 == 0))
    ++ (bars.map fun x => (x.1, if x.2.2 then (bar x.2.1).isSome && !twice x.1 x.2.1 else x.2.1 == 0))) with
  | some o => .error o
  | none => .ok { r with
      ranges := (ranges.filter fun x => x.2.2).filterMap fun x => rangeEntry x.2.1
      bars := (bars.filter fun x => x.2.2).filterMap fun x => bar x.2.1 }

/-! Capacity (R38, R101-R103). -/

/-- The waves of a block on its fullest core. -/
def Record.perCore (r : Record) : Nat := (r.nwaves + r.cores - 1) / r.cores
/-- The cluster groups of a grid. -/
def Record.ngroups (r : Record) : Nat := (r.nblocks + r.group - 1) / r.group
/-- The lines of a line store under a record's carve. -/
def Record.lines (r : Record) : Nat := 8 * (3072 - 256 * r.rcache - 256 * r.pantry - 256)
/-- R112: the reservation of a wave at admission. -/
def Record.reserve (r : Record) : Nat := regLines r.width r.vregs r.sregs
/-- R268, R269: the bytes of a context area that cluster group `c` takes. -/
def Record.groupBytes (r : Record) (c : Nat) : Nat := (r.groupBlocks c).length * (r.nwaves * r.waveBytes + r.blockBytes)
/-- Whether a grid uses a grid barrier. -/
def Record.usesGrid (r : Record) : Bool := r.bars.any fun e => e.bar.level == 3
/-- R15, R102, R103: how many blocks the slots of one core hold; under .repeatable each partition takes its own ranks. -/
def Record.blocksPerCoreSlots (r : Record) : Nat :=
  let n := max r.perCore 1
  if r.repeatable then 24 * (64 / r.width) / ((n + 5) / 6) else 144 * (64 / r.width) / n
/-- R103: the first row that a block can never meet, by its detail. -/
def Record.lacks (r : Record) : Option Nat :=
  let n := r.perCore
  if r.blocksPerCoreSlots = 0 then some 1
  else if r.lines < 16 * n then some 2
  else if 32 * r.pantry < r.share then some 3
  else if 2048 * r.rcache < n * r.reserve then some 4
  else if 4096 * r.ctxLen < r.groupBytes 0 then some 5
  else none
/-- R103: how many blocks one core holds under a record's carve. -/
def Record.blocksPerCore (r : Record) : Nat :=
  let n := max r.perCore 1
  let slots := r.blocksPerCoreSlots
  let pins := r.lines / (16 * n)
  let regs := 2048 * r.rcache / (n * max r.reserve 1)
  min (min slots pins) (if r.share = 0 then regs else min regs (32 * r.pantry / r.share))
/-- Whether a core may hold blocks: in service, on a die that admits them (R274, R286). -/
def State.inService (s : State) (die core : Nat) : Bool :=
  let d := s.die die
  s.up die && decide (core < 48) && !d.retired.contains core && d.power != .idle && d.toPower != some .idle
/-- R101: the cores of blocks of `c` cores with these homes. -/
def coresAt (c : Nat) (homes : List Nat) : List Nat := homes.flatMap fun h => (List.range c).map fun k => h + k
/-- R101: whether `n` blocks of `c` cores may have these homes, each its own, in one cluster. -/
def legalHomes (c n : Nat) (homes : List Nat) : Bool :=
  homes.length == n && decide homes.Nodup && homes.all fun h => decide (h < 48 ∧ h % c = 0 ∧ h / 8 = homes.headD 0 / 8)
/-- R101: the clusters of a device, each with the homes that blocks of `c` cores may have in it. -/
def clusters (c : Nat) : List (Nat × List Nat) :=
  (List.range 4).flatMap fun d => (List.range 6).map fun k => (d, ((List.range 8).map fun b => 8 * k + b).filter fun b => b % c == 0)
/-- R38, R101: how many groups of `m` blocks, each in homes of its own, `u` homes of a cluster hold that hold `k` blocks each. -/
def groupsIn (m k u : Nat) : Nat := if m ≤ u then u * k / m else 0
/-- R38: whether the device as configured can hold every group of a grid at once, the last one with its own number of blocks. Cores that are
retired, on a die that is offline or in warm reset, or idle or about to be, count as absent (DESIGN CHOICE, log entry 68). -/
def State.holds (s : State) (r : Record) : Bool :=
  let k := r.blocksPerCore
  let us := (clusters r.cores).map fun p => (p.2.filter fun h => (coresAt r.cores [h]).all (s.inService p.1)).length
  let room := (us.map (groupsIn r.group k)).sum
  let last := (r.groupBlocks (r.ngroups - 1)).length
  decide (r.ngroups ≤ room) || (decide (r.ngroups ≤ room + 1) && us.any fun u => decide (last ≤ u ∧ r.group * groupsIn r.group k u + last ≤ u * k))
/-- R103, R38: why a launch can never run, by the detail of NO_RESOURCE. -/
def State.never (s : State) (r : Record) : Option Nat :=
  match r.lacks with
  | some d => some d
  | none =>
    if r.usesGrid && (!s.holds r || decide (4096 * r.ctxLen < ((List.range r.ngroups).map r.groupBytes).sum)) then some 6 else none

/-! Acceptance (R93, R97, R98, R100, R387). -/

/-- R98: whether a launch must wait for an earlier one. -/
def Record.waitsFor (l e : Record) : Bool :=
  e.ranges.any fun a => l.ranges.any fun b => decide (a.lo < b.hi ∧ b.lo < a.hi) && (a.wr || (a.rd && b.wr))
/-- The grids from which a grid descends, itself included. -/
def State.lineage (s : State) : Nat → Option Nat → List Nat
  | 0, _ | _, none => []
  | n + 1, some g => g :: s.lineage n ((s.grid g).bind Grid.parent)
/-- R97, R387: a record is checked, and the launch queued or refused. -/
def State.accept (s : State) (session : Nat) (bs : List Byte) (entry : Option DWord) (depth : Nat) (parent : Option Nat) (tag : DWord) :
    State × Word :=
  match tget s.sessions session, parseRecord bs entry with
  | none, _ => (s, status cNO_SESSION 0)
  | some _, .error o => (s, status 0x40 o)
  | some x, .ok r =>
    if parent.isNone && decide (r.cls < x.cls) then (s, status 0x43 x.cls)
    else match s.never r with
      | some d => (s, status cNO_RESOURCE d)
      | none =>
        if 4096 ≤ x.launches then (s, status 0x41 0)
        else
          let up := s.lineage 12 parent
          let deps := (s.grids.filter fun g => g.2.session == session && !up.contains g.1 && r.waitsFor g.2.rec_).map Prod.fst
          let cls := match parent.bind s.grid with | some p => max r.cls p.cls | none => r.cls
          let seq := x.seq + 1
          let g : Grid := { session := session, seq := seq.toNat, rec_ := r, depth := depth, cls := cls, parent := parent, tag := tag
                            deps := deps, met := if deps.isEmpty then some s.now else none }
          ({ s with grids := tset s.grids s.nextGrid g, nextGrid := s.nextGrid + 1
                    sessions := tset s.sessions session { x with seq := seq, launches := x.launches + 1 } },
            status cOK (seq.toNat % 2 ^ 24))

/-- LAUNCH (R326): an address that is no multiple of 256, or beyond 56 bits, traps. -/
def execLaunch (h : Hdr) (d a : BitVec 7) (entry : Option (BitVec 30)) (s : State) : Host.Outcome State Fault Refusal :=
  issue (.launch h d a entry) s fun c s =>
    let addr := c.sPair a
    if !c.any then .ok s
    else if addr.toNat % 256 ≠ 0 ∨ 2 ^ 56 ≤ addr.toNat then .trap .misalign 0 .none c.mask addr
    else .ok (s.addOp (c.newOp s (.launch addr.toNat (entry.map (dispPc c.pc)) d)))
/-- LAUNCH_ACCEPTANCE (R326, R327, R37, R387). -/
def execLaunchAcceptance (op : Nat) (s : State) : Host.Outcome State Fault Refusal :=
  .next (match s.op op with
    | some o => match o.kind, s.grid o.wave.grid with
      | .launch addr entry st, some g =>
        if !s.outboundClear o then s
        else
          let done : State → Word → State := fun s x => ((s.putStatus o.wave st x).opDone op).endBlock o.wave.grid o.wave.block
          if 10 ≤ g.depth then done s (status cDEPTH 0)
          else match s.seek o o.space addr needR with
            | .wait => s
            | .fail => done s (status 0x42 0)
            | .ok pa =>
              if !s.lineUp (pa / 128) then done s (status cOFFLINE 0)
              else if (runLines pa 256).any s.badLines.contains then done s (status cDATA 0)
              else
                let r := s.accept g.session (s.devRdN pa 256) entry (g.depth + 1) (some o.wave.grid) 0
                done r.1 r.2
      | _, _ => s
    | none => s)
/-- LAUNCH_DEPENDENCES_MET (R98): every launch that this one waits for has retired. -/
def execLaunchDependencesMet (launch : Nat) (s : State) : Host.Outcome State Fault Refusal :=
  .next (match s.grid launch with
    | some g =>
      if g.met.isNone && g.deps.all fun e => (s.grid e).isNone then s.modGrid launch fun g => { g with met := some s.now } else s
    | none => s)

/-! Admission (R101-R105, R226). -/

/-- A wave to be placed: itself, its core, its rank there, its reservation. -/
structure Placing where
  id   : WaveId
  core : Nat
  rank : Nat
  res  : Nat
  deriving DecidableEq, Repr
/-- The waves of blocks, each with its home, as they go to their cores; at a resume, those that have not ended. -/
def State.placings (s : State) (g : Nat) (r : Record) (resume : Bool) (bs : List (Nat × Nat)) : List Placing :=
  bs.flatMap fun b =>
    (List.range r.nwaves).filterMap fun w =>
      let id : WaveId := ⟨g, b.1, w⟩
      let p : Placing := { id := id, core := b.2 + w % r.cores, rank := w / r.cores, res := r.reserve }
      if resume then (s.wave id).map fun x => { p with res := x.reserve } else some p
/-- All of a list, or none. -/
def allSome {α : Type} : List (Option α) → Option (List α)
  | [] => some []
  | none :: _ => none
  | some x :: t => (allSome t).map fun l => x :: l
/-- R15: the slots that a launch may use, given the places taken on a core, and the free places of a slot. -/
def openSlots (taken : List (Nat × Nat × Nat)) (g : Nat) : List Nat :=
  (List.range 144).filter fun slot => taken.all fun t => t.1 != slot || t.2.2 == g
/-- The free places of a slot. -/
def slotPlaces (taken : List (Nat × Nat × Nat)) (per slot : Nat) : List (Nat × Nat) :=
  ((List.range per).filter fun p => taken.all fun t => t.1 != slot || t.2.1 != p).map fun p => (slot, p)
/-- R101, R103: the places of any partition that a wave may take: in a slot that its launch shares already while one has a place, so that
waves take no more slots than R103 counts, else in any free slot (DESIGN CHOICE, log entry 22). -/
def freePlaces (taken : List (Nat × Nat × Nat)) (g per : Nat) : List (Nat × Nat) :=
  let shared := ((openSlots taken g).filter fun slot => taken.any fun t => t.1 == slot).flatMap (slotPlaces taken per)
  if shared.isEmpty then (openSlots taken g).flatMap (slotPlaces taken per) else shared
/-- R8: what nothing fixes of a core's places, drawn for that core alone. -/
def coreDraw (fresh : Nat) (cid : CoreId) (key : Nat) : Nat := (Config.freeWord fresh (256 * key + 64 * cid.die + cid.core)).toNat
/-- R8, R101: places for the waves of a launch that is not repeatable, in turn: `draw` draws what nothing fixes. -/
def placeAny (g per : Nat) (draw : Nat → Nat) : List (Nat × Nat × Nat) → List Placing → Option (List (Placing × Nat × Nat))
  | _, [] => some []
  | taken, p :: t =>
    let l := freePlaces taken g per
    if l.isEmpty then none
    else
      let x := l.getD (draw (4 * (p.rank + 2048 * p.id.block)) % l.length) (0, 0)
      (placeAny g per draw (taken ++ [(x.1, x.2, g)]) t).map fun l => (p, x) :: l
/-- A list in an order that nothing fixes (R8). -/
def freeShuffle {α : Type} (draw : Nat → Nat) (l : List α) : List α :=
  (sortBy (fun a b => decide (draw a.2 ≤ draw b.2)) l.zipIdx).map Prod.fst
/-- R102: places for the waves of a block of a repeatable launch on a core: those of ranks k of one k mod 6 take that partition, in rank order.
Which of its slots and places they take nothing fixes (R8): `draw` draws them, of the launch's shared slots first (log entry 22). -/
def placeRanked (g per : Nat) (draw : Nat → Nat) (taken : List (Nat × Nat × Nat)) (ps : List Placing) : Option (List (Placing × Nat × Nat)) :=
  let of : Nat → Option (List (Placing × Nat × Nat)) := fun part =>
    let mine := ps.filter fun p => p.rank % 6 == part
    let slots := (openSlots taken g).filter fun slot => slot / 24 == part
    let used := slots.filter fun slot => taken.any fun t => t.1 == slot
    let unused := slots.filter fun slot => !used.contains slot
    let shared := used.flatMap (slotPlaces taken per)
    if shared.length + per * unused.length < mine.length then none
    else
      let more := (freeShuffle (fun k => draw (4 * (1024 * part + k) + 2)) unused).take ((mine.length - shared.length + per - 1) / per)
      let up := sortBy (fun a b => decide (8 * a.1 + a.2 ≤ 8 * b.1 + b.2))
        ((freeShuffle (fun k => draw (4 * (1024 * part + k) + 3)) (shared ++ more.flatMap (slotPlaces taken per))).take mine.length)
      some (mine.zipIdx.map fun p => (p.1, up.getD p.2 (0, 0)))
  (allSome ((List.range 6).map of)).map List.flatten
/-- R8, R101: the order in which the waves of a launch that is not repeatable take their places. -/
def freePlacings (draw : Nat → Nat) (ps : List Placing) : List Placing :=
  sortBy (fun a b => decide (draw (4 * (a.rank + 2048 * a.id.block) + 1) ≤ draw (4 * (b.rank + 2048 * b.id.block) + 1))) ps
/-- R103: the pantry that the blocks resident on a core take, in units of 8 KiB. -/
def State.pantryUsed (s : State) (cid : CoreId) : Nat :=
  ((s.blocks.filter fun b => b.2.die == cid.die && decide (b.2.base ≤ cid.core ∧ cid.core < b.2.base + b.2.ncores) &&
    ((s.group b.1.1 (s.groupOf b.1.1 b.1.2)).map Group.resident).getD false).map fun b =>
      ((s.grid b.1.1).map fun g => g.rec_.share).getD 0).sum
/-- Whether a launch still waits for admission of some group, or for the resume of one. -/
def State.isWaiting (s : State) (g : Nat) : Bool :=
  match s.grid g with
  | some x => x.met.isSome && (decide (x.admitted < x.rec_.ngroups) || s.groups.any fun k => k.1.1 == g && !k.2.resident)
  | none => false
/-- R8, R103: whether a core takes some waves of a launch, with one block where they bring one, and the places they get, which are drawn for
this core apart from every other core of the group (log entries 2, 22). -/
def State.coreTakes (s : State) (g : Nat) (x : Grid) (cid : CoreId) (ps : List Placing) : Option (List (Placing × Nat × Nat)) :=
  let k := s.core cid
  let drained := match k.drain with | some l => l != g && s.isWaiting l | none => false
  if s.inService cid.die cid.core && !drained && k.rcache == x.rec_.rcache && k.pantry == x.rec_.pantry &&
      decide (s.pantryUsed cid + x.rec_.share ≤ 32 * k.pantry ∧ 16 * ps.length ≤ s.poolFree cid ∧ (ps.map Placing.res).sum ≤ s.regFree cid) &&
      (s.quiescing (cid.die, cid.core / 2)).isEmpty then
    let taken := (s.wavesOn cid).map fun w => (w.2.slot, w.2.pos, w.1.grid)
    let draw := coreDraw s.fresh cid
    if x.rec_.repeatable then placeRanked g (64 / x.rec_.width) draw taken ps
    else placeAny g (64 / x.rec_.width) draw taken (freePlacings draw ps)
  else none
/-- R276: whether the homes of the pages of a run of a context area are online. -/
def State.runUp (s : State) (space va n : Nat) : Bool :=
  (List.range ((va % 4096 + n + 4095) / 4096)).all fun k => match s.walk space (4096 * (va / 4096 + k)) with
    | some (pa, _) => s.lineUp (pa / 128)
    | none => true
/-- R276: whether the images of a pre-empted group, with their pages, lie in memory whose home dies are online. -/
def State.imagesUp (s : State) (g gid : Nat) : Bool :=
  let space := s.spaceOf g
  match s.grid g with
  | none => true
  | some x =>
    let page : Nat → Bool := fun p => s.runUp space (x.rec_.ctxBase + 4096 * p) 4096
    let own : Nat → Nat := fun im => ((x.ctx.find? fun e => x.rec_.ctxBase + e.1 == im).map Prod.snd).getD 0
    s.waves.all (fun w => w.1.grid != g || s.groupOf g w.1.block != gid ||
      s.runUp space w.2.image (own w.2.image) && (w.2.pages ++ w.2.gpages).all page) &&
    s.blocks.all fun b => b.1.1 != g || s.groupOf g b.1.2 != gid || s.runUp space b.2.image (own b.2.image) && b.2.pages.all page
/-- R108, R226: whether a hearth still holds a tile or an operation of a pre-empted group that its quiescent point has to save. -/
def State.unquiet (s : State) (g gid : Nat) : Bool :=
  let mine : WaveId → Bool := fun w => w.grid == g && s.groupOf g w.block == gid
  s.hearths.any fun h => h.2.tiles.any (fun t => (t.owner.map mine).getD false) ||
    h.2.queue.any fun m => m.cells.isNone && (((s.op m.id).map fun o => mine o.wave).getD false)
/-- R226: whether every tile that resumed waves own is free at the hearth that they go to, and goes to one wave. -/
def State.tilesFree (s : State) (die : Nat) (ps : List Placing) : Bool :=
  let ts := s.savedTiles.filterMap fun t => (ps.find? fun p => p.id == t.1).map fun p => (p.core / 2, t.2.1)
  (ts.all fun t => ((s.hearth (die, t.1)).tile t.2).owner.isNone) && decide ts.Nodup
/-- R101, R103: where the waves of a group go, if the cores with these homes take them all. -/
def State.plan (s : State) (g gid die : Nat) (homes : List Nat) (resume : Bool) : Option (List (Placing × Nat × Nat)) :=
  match s.grid g with
  | none => none
  | some x =>
    let bs := x.rec_.groupBlocks gid
    let ps := s.placings g x.rec_ resume (bs.zip homes)
    if !legalHomes x.rec_.cores bs.length homes || (resume && (!s.imagesUp g gid || s.unquiet g gid)) || !s.tilesFree die ps then none
    else (allSome ((coresAt x.rec_.cores homes).map fun c => s.coreTakes g x ⟨die, c⟩ (ps.filter fun p => p.core == c))).map List.flatten

/-- A context image taken from a grid's area. -/
def State.takeImage (s : State) (g n : Nat) : Option (Nat × State) :=
  match s.grid g with
  | some x => (x.take n 256).map fun r => (x.rec_.ctxBase + r.1, { s with grids := tset s.grids g r.2 })
  | none => none
/-- R29, R104: a wave as it is at its first issue. -/
def Record.newWave (r : Record) (core : CoreId) (slot pos image age now : Nat) : Wave :=
  { width := r.width, core := core, slot := slot, pos := pos, valloc := r.vregs, salloc := r.sregs
    sregs := sset 0 (sset 0 [] 0 (r.arg.truncate 32)) 1 (r.arg.extractLsb' 32 32)
    splits := [{ st := .running, p1 := { pc := r.entry, mask := allLanes r.width, readyAt := now + 1 } }, {}, {}, {}], image := image, age := age }
/-- R103, R104: one wave admitted. -/
def State.admitWave (s : State) (r : Record) (die : Nat) (p : Placing × Nat × Nat) : Option State :=
  (s.takeImage p.1.id.grid r.waveBytes).map fun t =>
    t.2.setWave p.1.id (r.newWave ⟨die, p.1.core⟩ p.2.1 p.2.2 t.1 s.nextAge (s.clk die))
/-- R99, R183: the cores of a group as it is admitted to them; the free order of its places has been drawn. -/
def State.renewCores (s : State) (die : Nat) (cores : List Nat) : State :=
  cores.foldl (fun s c => s.renewCore ⟨die, c⟩) { s with fresh := s.fresh + 1 }
/-- R103, R113: a new cluster group admitted whole to its homes, and room made for its registers. -/
def State.admitGroup (s : State) (g gid die : Nat) (homes : List Nat) : Option State :=
  match s.grid g, s.plan g gid die homes false with
  | some x, some ps =>
    let r := x.rec_
    let bs := r.groupBlocks gid
    ((stepsM (fun s p => s.admitWave r die p) ps (s.renewCores die (coresAt r.cores homes))).bind fun s =>
      stepsM (fun s i => (s.takeImage g r.blockBytes).map fun t =>
        let b : Block := { die := die, base := homes.getD i 0, ncores := r.cores, shares := List.replicate r.cores {}, image := t.1 }
        { t.2 with blocks := tset t.2.blocks (g, bs.getD i 0) b })
        (List.range bs.length) s).map fun s =>
      (coresAt r.cores homes).foldl (fun (s : State) c => s.makeRoom ⟨die, c⟩)
        (({ s with groups := tset s.groups (g, gid) { die := die, base := homes.headD 0, since := s.now }, nextAge := s.nextAge + 1 }).modGrid g fun x =>
          { x with admitted := x.admitted + 1 })
  | _, _ => none

/-! Images and waits across pre-emption (R108, R264, R268). -/

/-- R268: a window entry. -/
def Binding.entry (b : Binding) : Nat :=
  b.code * 2 ^ 62 + (if b.write then 2 ^ 61 else 0) + b.rd.toNat * 2 ^ 59 + b.addr.toNat % 2 ^ 56
/-- R7, R108, R268: the window area, the page list and the reserved bytes of a wave's image written, with what has been written to register
lines outside the cache; the lines in the cache are written as it evicts them (R113). -/
def State.saveImage (s : State) (id : WaveId) : State :=
  match s.wave id, s.grid id.grid with
  | some w, some g =>
    let s := s.landWords id w.newer
    let s := s.imageWrite (s.spaceOf id.grid) (w.image + 0x0F90) (List.replicate 0x70 0)
    let s := (List.range w.width).foldl (fun s l => (List.range 16).foldl (fun s n =>
      s.imageWrite (s.spaceOf id.grid) (s.imageVa id w (0x2000 + (16 * l + n) * 8)) (leBytes 8 (w.bind l n).entry)) s) s
    s.imageRun (s.spaceOf id.grid) (w.image + 0x1200) (w.pageList g.rec_.ctxBase)
  | _, _ => s
/-- A wait with its deadline changed. -/
def Wait.shift (f : Nat → Nat) : Wait → Wait
  | .barrier b g d p t => .barrier b g d p (f t)
  | .token k d t => .token k d (f t)
  | .counter p n d t => .counter p n d (f t)
  | .sleep t => .sleep (f t)
  | .growth n d t => .growth n d (f t)
  | x => x
/-- A path with its wait's deadline changed. -/
def Path.shift (f : Nat → Nat) (p : Path) : Path := { p with wait := p.wait.map (Wait.shift f) }
/-- R48: the deadlines of a wave's waits changed: to what remains of them, or back. -/
def Wave.shiftWaits (f : Nat → Nat) (w : Wave) : Wave :=
  { w with
    splits := w.splits.map fun x => { x with p1 := x.p1.shift f, p2 := x.p2.map (Path.shift f)
                                             stack := x.stack.map fun e => { e with wait := e.wait.map (Wait.shift f) } }
    hand := w.hand.map fun h => { h with path := h.path.shift f } }
/-- The deadlines of a wave's waits and of its operations in flight that a limit bounds. -/
def State.shiftWave (s : State) (id : WaveId) (f : Nat → Nat) : State :=
  let s := s.modWave id (Wave.shiftWaits f)
  { s with ops := s.ops.map fun (o : Op) =>
      if o.wave = id then match o.kind with
        | .open x => { o with kind := .open { x with deadline := f x.deadline } }
        | .arrival b n l d (some t) => { o with kind := .arrival b n l d (some (f t)) }
        | _ => o
      else o }
/-- The count of a paused wait, at a clock. -/
def State.pause (s : State) (id : WaveId) : State := s.shiftWave id fun t => t - s.clkOf id
/-- A paused wait's limit counts again. -/
def State.restart (s : State) (id : WaveId) : State := s.shiftWave id fun t => t + s.clkOf id

/-- R22: the spacings and yields of a wave that goes from one die's clock to another's, by what is left of them. -/
def Wave.rebase (old new : Nat) (w : Wave) : Wave :=
  let f : Nat → Nat := fun t => t - old + new
  let path : Path → Path := fun p => { p with readyAt := f p.readyAt, yieldAt := p.yieldAt.map f }
  { w with
    splits := w.splits.map fun x => { x with p1 := path x.p1, p2 := x.p2.map path
                                             stack := x.stack.map fun e => { e with readyAt := f e.readyAt, yieldAt := e.yieldAt.map f } }
    hand := w.hand.map fun h => { h with path := path h.path, entered := none }
    ctxPark := if w.dbg then w.ctxPark else w.ctxPark.map fun t => t + new - old }
/-- The cause of a code (R255). -/
def causeOf (code : Nat) : Cause :=
  ([.illegal, .priv, .misalign, .windowClosed, .windowRecalled, .xlate, .dataError, .stallCheck, .barrier, .excThreshold, .soft, .debug,
    .matrix, .cstwPartial, .stack] : List Cause).getD (code - 1) .double
/-- R263: a trap taken in this clock, whose handler has not issued, becomes pending: its record and registers stand, and the handler
starts once the wave goes on. -/
def State.undoEntry (s : State) (id : WaveId) (w : Wave) : Wave :=
  match w.hand with
  | some h =>
    if w.inHandler && h.entered == some (s.clkOf id) && w.pending.isNone then
      let t : Trap := { cause := causeOf w.record.type, record := w.record, trappc := w.trappc, split := h.split, second := h.second, win := h.win }
      { w.modSplit h.split (fun x => { x with st := h.prev }) with mode := .running, hand := none, pending := some t }
    else w
  | none => w
/-- R343: the fetches that the OPENs of a wave have requested complete into the line store of its core as unpinned entries; for a line
that an engine owns, or that is refused, none does. -/
def State.landFetches (s : State) (id : WaveId) (w : Wave) : State :=
  let xs := (s.ops.filter fun o => o.wave == id && !o.done).filterMap fun o => match o.kind with | .open x => some x | _ => none
  xs.foldl (fun s x => x.need.foldl (fun s l =>
    if (tget s.owned l).isSome || !s.lineUp l || s.lineBad w.core.die l then s else s.fill w.core l x.rd.toNat none) s) s
/-- R108, R263, R264: one wave pre-empted; a trap taken in this clock becomes pending. Its register lines stay in the cache until it needs
room (R113). -/
def State.stopWave (s : State) (id : WaveId) : State :=
  match s.wave id with
  | none => s
  | some w =>
    let s := (s.setWave id (s.undoEntry id w)).landFetches id w
    let s := if w.dbg then s else s.pause id
    let silent : Op → Bool := fun o => o.wave == id && (match o.kind with | .acquire _ _ _ q _ => q | _ => false)
    let held := (s.ops.any fun o => silent o && some o.id == w.hold)
    let clear : OpenOp → OpenOp := fun x => { x with need := [] }
    let s := { s with ops := (s.ops.filter fun o => !silent o).map fun (o : Op) =>
      if o.wave = id then match o.kind with | .open x => { o with kind := .open (clear x) } | _ => o else o }
    let s := s.modWave id fun w =>
      { w.landAll with
        shared := [], overdue := none, readySince := none, evicted := false, hold := if held then none else w.hold
        wins := w.wins.map fun b => if b.2.st == .pending then (b.1, { b.2 with st := .bound }) else b }
    ((s.spillSaved id true).saveImage id).modWave id fun w => { w with resident := false }
/-- The waves of a cluster group that have not ended. -/
def State.groupWaves (s : State) (g gid : Nat) : List WaveId :=
  (s.waves.map Prod.fst).filter fun w => w.grid == g && s.groupOf g w.block == gid
/-- R7, R108, R269: a block's buffer spilled, and its image's reserved bytes, page list and pantry shares written. -/
def State.saveBlock (s : State) (g b : Nat) : State :=
  let s := s.spillBlock g b
  match s.block g b, s.grid g with
  | some k, some x =>
    let n := x.rec_.shareBytes
    let s := s.imageRun (s.spaceOf g) (k.image + 0x240) (List.replicate 448 0 ++ k.pageList x.rec_.ctxBase)
    (List.range k.ncores).foldl (fun s i => (List.range (n / 256)).foldl (fun s p =>
      s.imageWrite (s.spaceOf g) (k.image + 0x1000 + n * i + 256 * p)
        ((List.range 256).map fun j => sget 0 ((k.shares.getD i {}).bytes) (256 * p + j))) s) s
  | _, _ => s
/-- R107, R108: a resident cluster group is pre-empted. -/
def State.stopGroup (s : State) (g gid : Nat) : State :=
  match s.group g gid with
  | some x =>
    if x.resident then
      let s := (s.groupWaves g gid).foldl State.stopWave s
      let s := (((s.grid g).map fun x => x.rec_.groupBlocks gid).getD []).foldl (fun s b => s.saveBlock g b) s
      let held : Block → Block := fun b => { b with copies := b.copies.map fun c => { c with limit := c.limit - s.clk b.die } }
      let s := { s with blocks := s.blocks.map fun (b : (Nat × Nat) × Block) =>
        if b.1.1 = g ∧ s.groupOf g b.1.2 = gid then (b.1, held b.2) else b }
      s.modGroup g gid fun x => { x with resident := false, expired := false }
    else s
  | none => s
/-- R107: the unit of pre-emption: the cluster group, or the grid where it uses a grid barrier. -/
def State.preempt (s : State) (g gid : Nat) : State :=
  match s.grid g with
  | some x =>
    if x.rec_.usesGrid then ((s.groups.map Prod.fst).filter fun k => k.1 == g).foldl (fun s k => s.stopGroup g k.2) s else s.stopGroup g gid
  | none => s

/-! Resume (R104, R108, R112, R141, R181). -/

/-- R108, R141: one wave put at its place: its bindings that were BOUND wait to be reopened. -/
def State.putBackAt (s : State) (die : Nat) (p : Placing × Nat × Nat) : State :=
  let id := p.1.id
  match s.wave id with
  | none => s
  | some w =>
    let s := if w.core = ⟨die, p.1.core⟩ then s else s.evictWave id
    let w := (s.wave id).getD w
    let s := s.setWave id { w.rebase (s.clk w.core.die) (s.clk die) with
      core := ⟨die, p.1.core⟩, slot := p.2.1, pos := p.2.2, resident := true, age := s.nextAge
      wins := w.wins.map fun b => if b.2.st == .bound then (b.1, { b.2 with st := .pending, line := 0 }) else b }
    { s with ops := s.ops.map fun (o : Op) =>
      let here : Op := { o with core := ⟨die, p.1.core⟩, slot := p.2.1 }
      if o.wave = id then match o.kind with
        | .open _ => here
        | .matrix _ => if s.suspended.any fun x => x.2.id == o.id then here else o
        | _ => o
      else o }
/-- R147, R343: the lanes of a wave's OPENs and REOPENs that are not bound yet are looked up anew, under the tables as they are. -/
def State.relookWave (s : State) (id : WaveId) : State :=
  (s.ops.filter fun o => o.wave == id && !o.done && o.openOf.isSome).foldl (fun s o => s.openRelook o.id fun _ => true) s
/-- R108, R141, R181: one wave resumed, once its group stands at its places: waits whose condition holds end first (R48); its registers are in
its image, or on the same core in the cache still (R113); its windows are opened again, and its first issue waits for the effect of an
ACQUIRE.DEVICE. -/
def State.resumeWave (s : State) (die : Nat) (p : Placing × Nat × Nat) : State :=
  let id := p.1.id
  match s.wave id with
  | none => s
  | some w =>
    let s := s.rebind id
    let s := if w.dbg then s else (s.modWave id fun w => w.wake s id).restart id
    let o : Op := { id := s.nextOp, wave := id, split := 0, second := false, pc := 0, core := ⟨die, p.1.core⟩, space := s.spaceOf id.grid
                    kind := .acquire 3 0 none true 0, slot := p.2.1 }
    let s := (s.addOp o).modWave id fun w => { w with hold := some o.id }
    let k := (die, p.1.core / 2)
    let s := if w.dbg then s else s.requeue k id
    let s := s.untile k id
    (s.relookWave id).openSettle id
/-- R103, R141: a pre-empted group resumed whole at its homes. Of the pages of its images those stay that its cores' commit areas spill into, and
those of what a hearth has saved of waves that a debugger halts (R270). -/
def State.resumeGroup (s : State) (g gid die : Nat) (homes : List Nat) : Option State :=
  match s.grid g, s.group g gid, s.plan g gid die homes true with
  | some x, some k, some ps =>
    if k.resident then none
    else
      let bs := x.rec_.groupBlocks gid
      let moved : Nat → Block → Block := fun n b =>
        { b with die := die, base := homes.getD (bs.idxOf n) 0, copies := b.copies.map fun c => { c with limit := c.limit + s.clk die } }
      let s := { s with blocks := s.blocks.map fun (b : (Nat × Nat) × Block) =>
        if b.1.1 = g ∧ b.1.2 / x.rec_.group = gid then (b.1, moved b.1.2 b.2) else b }
      let s := s.modGroup g gid fun k => { k with die := die, base := homes.headD 0, resident := true, since := s.now, expired := false }
      let s := s.renewCores die (coresAt x.rec_.cores homes)
      let s := ps.foldl (fun s p => s.resumeWave die p) (ps.foldl (fun s p => s.putBackAt die p) s)
      let s := (coresAt x.rec_.cores homes).foldl (fun s c => (s.trimSpill ⟨die, c⟩).makeRoom ⟨die, c⟩) s
      some { s with nextAge := s.nextAge + 1 }
  | _, _, _ => none

/-! The order of admission (R104, R107). -/

/-- A group that waits: its grid, its number, whether it resumes. -/
structure Waiting where
  g      : Nat
  gid    : Nat
  resume : Bool
  deriving DecidableEq, Repr
/-- The groups that wait for admission: of each launch the next new one, and those pre-empted. -/
def State.waiting (s : State) : List Waiting :=
  s.grids.flatMap fun g =>
    if g.2.met.isNone then []
    else ((s.groups.filter fun k => k.1.1 == g.1 && !k.2.resident).map fun k => ⟨g.1, k.1.2, true⟩) ++
      (if g.2.admitted < g.2.rec_.ngroups then [⟨g.1, g.2.admitted, false⟩] else [])
/-- R104: by class, then by when the launch's dependences were met, then by block; two launches that all three leave equal come in the
order of their acceptance (log entry 26). -/
def State.before (s : State) (a b : Waiting) : Bool :=
  let key : Waiting → Nat × Nat × Nat × Nat := fun x =>
    (((s.grid x.g).map Grid.cls).getD 0, ((s.grid x.g).bind Grid.met).getD 0, x.gid * ((s.grid x.g).map fun g => g.rec_.group).getD 1, x.g)
  let p := key a
  let q := key b
  decide (p.1 < q.1 ∨ (p.1 = q.1 ∧ (p.2.1 < q.2.1 ∨ (p.2.1 = q.2.1 ∧ (p.2.2.1 < q.2.2.1 ∨ (p.2.2.1 = q.2.2.1 ∧ p.2.2.2 < q.2.2.2))))))
/-- A group admitted or resumed at its homes, alone. -/
def State.place (s : State) (x : Waiting) (die : Nat) (homes : List Nat) : Option State :=
  if x.resume then s.resumeGroup x.g x.gid die homes else s.admitGroup x.g x.gid die homes
/-- Homes for `n` more blocks, one after the other: the first of those that `tries` names for each that is not taken and that `ok` allows. -/
def arrange (tries : Nat → List Nat) (ok : List Nat → Bool) : Nat → List Nat → Option (List Nat)
  | 0, hs => some hs
  | n + 1, hs => (tries hs.length).findSome? fun h =>
      if !hs.contains h && ok (hs ++ [h]) then arrange tries ok n (hs ++ [h]) else none
/-- R101, R103, R226: homes for the blocks of a waiting group among those of a cluster, tried for each block in the order that `order` gives. -/
def State.homesIn (s : State) (x : Waiting) (order : Nat → List Nat → List Nat) (die : Nat) (homes : List Nat) : Option (List Nat) :=
  match s.grid x.g with
  | none => none
  | some g =>
    let bs := g.rec_.groupBlocks x.gid
    let takes : Nat → Nat → Bool := fun b h =>
      let ps := s.placings x.g g.rec_ x.resume [(b, h)]
      s.tilesFree die ps && (coresAt g.rec_.cores [h]).all fun c => (s.coreTakes x.g g ⟨die, c⟩ (ps.filter fun p => p.core == c)).isSome
    let tries := bs.zipIdx.map fun b => order b.2 (homes.filter (takes b.1))
    if (homes.filter fun h => tries.any fun l => l.contains h).length < bs.length then none
    else arrange (fun i => tries.getD i []) (fun hs => s.tilesFree die (s.placings x.g g.rec_ x.resume (bs.zip hs))) bs.length []
/-- How many more blocks of a launch the cores with a home have places for. -/
def State.roomAt (s : State) (g : Nat) (r : Record) (die h : Nat) : Nat :=
  let n := max r.perCore 1
  ((coresAt r.cores [h]).map fun c =>
    let cid : CoreId := ⟨die, c⟩
    let taken := (s.wavesOn cid).map fun w => (w.2.slot, w.2.pos, w.1.grid)
    let places := (openSlots taken g).flatMap (slotPlaces taken (64 / r.width))
    let slots := if r.repeatable then ((List.range 6).map fun k => (places.filter fun p => p.1 / 24 == k).length / ((n + 5) / 6)).foldl min 3456 else places.length / n
    let share := if r.share = 0 then slots else (32 * r.pantry - s.pantryUsed cid) / r.share
    min (min slots share) (min (s.poolFree cid / (16 * n)) (s.regFree cid / (n * max r.reserve 1)))).foldl min 3456
/-- The homes with the most room first: so placed, groups leave as many homes of their own to those that follow as they can. -/
def State.roomiest (s : State) (g : Nat) (r : Record) (die : Nat) (homes : List Nat) : List Nat :=
  sortBy (fun a b => decide (b.2 ≤ a.2)) (homes.map fun h => (h, s.roomAt g r die h)) |>.map Prod.fst
/-- R8, R38, R102: the other waiting groups of a grid placed, or none: at homes that nothing fixes, drawn with `free`, or without it in the
first cluster that has room, in its roomiest homes. -/
def State.placeRest (s : State) (g : Nat) (free : Bool) : Nat → Option State
  | 0 => some s
  | n + 1 =>
    match s.waiting.find? fun x => x.g == g, s.grid g with
    | some x, some k =>
      let draw : Nat → Nat := fun key => (Config.freeWord s.fresh (2 ^ 64 + key)).toNat
      let all := clusters k.rec_.cores
      let try_ : Nat × List Nat → Option State := fun p =>
        let order := if free then fun i (l : List Nat) => freeShuffle (fun j => draw (64 * (64 * p.1 + p.2.headD 0) + 8 * i + j)) l
          else fun _ l => s.roomiest g k.rec_ p.1 l
        (s.homesIn x order p.1 p.2).bind fun hs => s.place x p.1 hs
      match (if free then freeShuffle (fun j => draw (2 ^ 20 + j)) all else all).findSome? try_ with
      | none => none
      | some s => s.placeRest g free n
    | _, _ => some s
/-- R38, R103, R107: a group admitted or resumed at its homes, and with a grid barrier the whole grid with it: where free homes leave some
group without any, where there is most room (log entry 22). -/
def State.placeWhole (s : State) (x : Waiting) (die : Nat) (homes : List Nat) : Option State :=
  match s.grid x.g with
  | none => none
  | some g => (s.place x die homes).bind fun s =>
    if g.rec_.usesGrid then (s.placeRest x.g true g.rec_.ngroups).or (s.placeRest x.g false g.rec_.ngroups) else some s
/-- Homes that take a waiting group. -/
def State.fits (s : State) (x : Waiting) : Option (Nat × List Nat) :=
  match s.grid x.g with
  | none => none
  | some g => (clusters g.rec_.cores).findSome? fun p =>
    (s.homesIn x (fun _ l => if g.rec_.usesGrid then s.roomiest x.g g.rec_ p.1 l else l) p.1 p.2).bind fun hs =>
      if (s.placeWhole x p.1 hs).isSome then some (p.1, hs) else none
/-- R105: the cores that drained for a launch are free for others. -/
def State.undrain (s : State) (l : Nat) : State :=
  let free : Core → Core := fun k => if k.drain = some l then { k with drain := none } else k
  { s with cores := s.cores.map fun (k : CoreId × Core) => (k.1, free k.2) }
/-- The ways to take `n` of a list, in its order. -/
def picks : Nat → List Nat → List (List Nat)
  | 0, _ => [[]]
  | _ + 1, [] => []
  | n + 1, x :: t => (picks n t).map (fun l => x :: l) ++ picks (n + 1) t
/-- R101: the cores of a die with these numbers. -/
def onDie (die : Nat) (cores : List Nat) : List CoreId := cores.map fun c => ⟨die, c⟩
/-- R101, R105: the positions that a waiting group might occupy: a die, and homes in ascending order. -/
def State.homeSets (s : State) (x : Waiting) : List (Nat × List Nat) :=
  match s.grid x.g with
  | some g => (clusters g.rec_.cores).flatMap fun p =>
    (picks (g.rec_.groupBlocks x.gid).length (p.2.filter fun h => (coresAt g.rec_.cores [h]).all (s.inService p.1))).map fun hs => (p.1, hs)
  | none => []
/-- Whether a core has the carve of a launch (R103). -/
def Core.carvedFor (k : Core) (r : Record) : Bool := k.rcache == r.rcache && k.pantry == r.pantry
/-- The class of a group's grid. -/
def State.clsOf (s : State) (g : Nat) : Nat := ((s.grid g).map Grid.cls).getD 0
/-- R105: whether a core drains for another launch that waits. -/
def State.drainsOther (s : State) (launch : Nat) (k : Core) : Bool :=
  match k.drain with | some l => s.isWaiting l && l != launch | none => false
/-- R105, R110: whether a position may be freed for a launch: all its cores are in service, and none drains for another of its class or a
higher one. -/
def State.mayCarve (s : State) (launch : Nat) (cores : List CoreId) : Bool :=
  (cores.all fun c => s.inService c.die c.core) && !(s.cores.any fun k =>
    cores.contains k.1 && s.drainsOther launch k.2 && decide ((k.2.drain.map s.clsOf).getD 0 ≤ s.clsOf launch))
/-- Whether a core that drains for a launch has gone out of service. -/
def State.brokenDrain (s : State) (launch : Nat) : Bool :=
  s.cores.any fun k => k.2.drain == some launch && !s.inService k.1.die k.1.core
/-- R105: what drained on a position for launches of lower classes is given up, and so is a position that has lost a core. -/
def State.displace (s : State) (launch : Nat) (cores : List CoreId) : State :=
  (s.cores.filter fun k => cores.contains k.1 && s.drainsOther launch k.2).foldl (fun s k => (k.2.drain.map s.undrain).getD s)
    (if s.brokenDrain launch then s.undrain launch else s)
/-- Whether a core holds no waves, nor its hearth anything of waves that have left it. -/
def State.coreEmpty (s : State) (c : CoreId) : Bool := (s.wavesOn c).isEmpty && (s.quiescing (c.die, c.core / 2)).isEmpty
/-- R105: empty cores invalidated and carved together for a launch, and kept for it. -/
def State.carve (s : State) (launch : Nat) (r : Record) (cores : List CoreId) : State :=
  cores.foldl (fun (s : State) c => s.modCore c fun k =>
    { k with rcache := r.rcache, pantry := r.pantry, store := [], floors := [], updq := [], drain := some launch })
    (s.emptyCaches fun c => cores.contains c)
/-- R38, R105: a waiting group admitted to empty cores carved for it. Where the whole grid must be resident at once they are kept for it until
the rest has its cores too. -/
def State.carveAdmit (s : State) (x : Waiting) (die : Nat) (homes : List Nat) : Option State :=
  match s.grid x.g with
  | none => none
  | some g =>
    let cores := onDie die (coresAt g.rec_.cores homes)
    if !s.mayCarve x.g cores || !cores.all s.coreEmpty || cores.all (fun c => (s.core c).carvedFor g.rec_) then none
    else
      let t := (s.displace x.g cores).carve x.g g.rec_ cores
      match t.placeWhole x die homes with
      | some t => some (t.undrain x.g)
      | none => if g.rec_.usesGrid then some t else none
/-- A position's homes in an order in which they take a waiting group's blocks once they are carved for it, if any does. -/
def State.carveOrder (s : State) (x : Waiting) (p : Nat × List Nat) : List Nat :=
  match s.grid x.g with
  | none => p.2
  | some g => (((s.displace x.g (onDie p.1 (coresAt g.rec_.cores p.2))).carve x.g g.rec_ (onDie p.1 (coresAt g.rec_.cores p.2))).homesIn x (fun _ l => l) p.1 p.2).getD p.2
/-- R105: the positions of empty cores that might be carved for a waiting group. -/
def State.carvable (s : State) (x : Waiting) : List (Nat × List Nat) :=
  match s.grid x.g with
  | none => []
  | some g => (s.homeSets x).filter fun p => (onDie p.1 (coresAt g.rec_.cores p.2)).all s.coreEmpty
/-- R104, R105: whether a waiting group can have its cores now, as they are carved or carved anew. -/
def State.canGo (s : State) (x : Waiting) : Bool :=
  (s.fits x).isSome || (s.carvable x).any fun p => (s.carveAdmit x p.1 (s.carveOrder x p)).isSome
/-- R104: whether a group comes next: no group before it could have its cores anywhere. -/
def State.turn (s : State) (x : Waiting) : Bool := s.waiting.contains x && s.waiting.all fun y => !s.before y x || !s.canGo y
/-- A waiting group placed at its homes when its turn has come. -/
def State.placeTurn (s : State) (x : Waiting) (die : Nat) (homes : List Nat) : State :=
  if s.turn x then ((s.placeWhole x die homes).map fun t => t.undrain x.g).getD s else s
/-- BLOCK_ADMIT (R38, R101-R104). -/
def execBlockAdmit (launch group : Nat) (die : Nat) (homes : List Nat) (s : State) : Host.Outcome State Fault Refusal :=
  .next (s.placeTurn ⟨launch, group, false⟩ die homes)
/-- BLOCK_RESUME (R103, R104, R108, R141, R181, R226). -/
def execBlockResume (grid group : Nat) (die : Nat) (homes : List Nat) (s : State) : Host.Outcome State Fault Refusal :=
  .next (s.placeTurn ⟨grid, group, true⟩ die homes)

/-! Pre-emption and carving (R105, R107). -/

/-- R105: whether a waiting group lacks cores, and not only room in its context area, an image on an offline die or the end of a hearth's
work: no cores, as they are carved, would take it. -/
def State.lacksCores (s : State) (x : Waiting) : Bool :=
  let whole := ((s.grid x.g).map fun g => g.rec_.usesGrid).getD false
  let ample := s.modGrid x.g fun g => { g with rec_ := { g.rec_ with ctxLen := 2 ^ 32 } }
  (s.waiting.all fun y => y.g != x.g || !y.resume || (!whole && y.gid != x.gid) || (s.imagesUp y.g y.gid && !s.unquiet y.g y.gid)) &&
    (ample.fits x).isNone
/-- The waiting groups that no free cores suit. -/
def State.stuck (s : State) : List Waiting := s.waiting.filter s.lacksCores
/-- R107, R109: whether a wave of a group, or of its whole grid where that is the unit of pre-emption, is halted by a debugger. -/
def State.anyDbg (s : State) (g gid : Nat) : Bool :=
  let whole := ((s.grid g).map fun x => x.rec_.usesGrid).getD false
  s.waves.any fun w => w.1.grid == g && (whole || s.groupOf g w.1.block == gid) && w.2.dbg
/-- R107: the clocks of one time slice of a group: its own session's, which R107 leaves to be said (DESIGN CHOICE, log entry 94). -/
def State.sliceOf (s : State) (g : Nat) : Nat := (((s.grid g).bind fun x => tget s.sessions x.session).map Session.slice).getD 0
/-- Whether a group occupies a core that drains for a launch. -/
def State.onDrain (s : State) (g gid : Nat) (l : Nat) : Bool :=
  (s.groupWaves g gid).any fun w => ((s.wave w).map fun w => (s.core w.core).drain == some l).getD false
/-- R105: whether the cores that drain for a launch hold a block of its class or a higher one, which ends by itself. -/
def State.drainsHigh (s : State) (l : Nat) : Bool :=
  s.waves.any fun w => w.2.resident && (s.core w.2.core).drain == some l && decide (s.clsOf w.1.grid ≤ s.clsOf l)
/-- R105, R107, R109: whether a group may be pre-empted for a launch that no position takes: its class is numerically greater, the launch is
of class 0 or its slice has run and no debugger halts it, and it occupies a core that drains for the launch, where every block on those is
of a greater class. -/
def State.victimFor (s : State) (g gid : Nat) (x : Waiting) : Bool :=
  let c := s.clsOf x.g
  decide (c < s.clsOf g) && (c == 0 || (((s.group g gid).map Group.expired).getD false && !s.anyDbg g gid)) && s.onDrain g gid x.g &&
    !s.drainsHigh x.g
/-- R107: the greatest class first, then the youngest. -/
def State.victimBefore (s : State) (a b : (Nat × Nat) × Group) : Bool :=
  decide (s.clsOf b.1.1 < s.clsOf a.1.1 ∨ (s.clsOf b.1.1 = s.clsOf a.1.1 ∧ b.2.since < a.2.since))
/-- PREEMPTION (R107, R108). -/
def execPreemption (grid group : Nat) (s : State) : Host.Outcome State Fault Refusal :=
  .next (match s.group grid group with
    | some k =>
      let ok := k.resident && s.stuck.any fun x =>
        s.victimFor grid group x && s.groups.all fun y => !(y.2.resident && s.victimFor y.1.1 y.1.2 x && s.victimBefore y ((grid, group), k))
      if ok then s.preempt grid group else s
    | none => s)
/-- TIME_SLICE_EXPIRY (R107, R109): the group has been resident for one slice while a launch of classes 1 to 3 and a lesser class number
waits; it waits for a debugger halt to end. -/
def execTimeSliceExpiry (grid group : Nat) (s : State) : Host.Outcome State Fault Refusal :=
  .next (match s.group grid group with
    | some k =>
      if k.resident && !k.expired && decide (k.since + s.sliceOf grid ≤ s.now) && !s.anyDbg grid group &&
          s.stuck.any (fun x => decide (s.clsOf x.g < s.clsOf grid)) then
        s.modGroup grid group fun k => { k with expired := true }
      else s
    | none => s)
/-- R105: whether a launch's position has still to drain, or to be carved. -/
def State.draining (s : State) (launch : Nat) (r : Record) : Bool :=
  !s.brokenDrain launch && s.cores.any fun k => k.2.drain == some launch && !(s.coreEmpty k.1 && k.2.carvedFor r)
/-- R105: whether every block on a position has a class numerically greater than a launch's, so that it is pre-empted. -/
def State.lowerOn (s : State) (launch : Nat) (cores : List CoreId) : Bool :=
  cores.all fun c => (s.wavesOn c).all fun w => decide (s.clsOf launch < s.clsOf w.1.grid)
/-- R105: whether a position may begin to drain for a launch: one at a time for each launch, and of those that hold blocks of its class or a
higher one, which end by themselves, one at a time on each die. -/
def State.mayDrain (s : State) (launch die : Nat) (r : Record) (cores : List CoreId) : Bool :=
  s.mayCarve launch cores && !s.draining launch r && (s.lowerOn launch cores || !(s.cores.any fun k =>
    k.1.die == die && s.drainsOther launch k.2 && (k.2.drain.map s.drainsHigh).getD false))
/-- RECARVE (R104, R105): a position of cores for the next group of a launch that no free cores suit: it drains, or once its cores are empty
and the group's turn has come they are carved for it and it is admitted to them (log entry 90). -/
def execRecarve (launch : Nat) (homes : List CoreId) (s : State) : Host.Outcome State Fault Refusal :=
  .next (match s.grid launch, s.stuck.find? fun x => x.g == launch && s.stuck.all fun y => y.g != launch || !s.before y x with
    | some g, some x =>
      let die := (homes.head?.map CoreId.die).getD 0
      let hs := homes.map CoreId.core
      let cores := onDie die (coresAt g.rec_.cores hs)
      if homes != onDie die hs || !legalHomes g.rec_.cores (g.rec_.groupBlocks x.gid).length hs then s
      else if cores.all s.coreEmpty then (if s.turn x then (s.carveAdmit x die hs).getD s else s)
      else if s.mayDrain launch die g.rec_ cores then
        cores.foldl (fun s c => s.modCore c fun k => { k with drain := some launch }) (s.displace launch cores)
      else s
    | _, _ => s)

/-! VREGS and reservations (R114, R270, R376, R377). -/

/-- The bytes of a wave's image in its grid's area, but for those of pages added by VREGS. -/
def State.ownBytes (s : State) (id : WaveId) (w : Wave) : Nat :=
  match s.grid id.grid with
  | some g => ((g.ctx.find? fun e => g.rec_.ctxBase + e.1 == w.image).map Prod.snd).getD 0
  | none => 0
/-- R114: whether a wave is parked on a long wait, and on nothing else. -/
def Wave.longWait (w : Wave) (s : State) : Bool :=
  let long : Wait → Bool := fun x => match x with
    | .barrier .. | .token .. | .counter .. | .growth .. => true
    | .op id => match s.op id with
      | some o => (match o.kind with
        | .arrival _ _ _ _ (some _) => true
        | .open y => y.need.any fun l => (tget s.owned l).isSome
        | _ => false)
      | none => false
    | _ => false
  let live := if w.inHandler then w.paths.filter fun p => p.2.2.1
    else w.paths.filter fun p => !p.2.2.1 && (w.split p.1).st == .running && !p.2.2.2.atJoin
  !live.isEmpty && live.all fun p => match p.2.2.2.wait with | some x => long x | none => false
/-- Whether a wave has a growth parked. -/
def Wave.growing (w : Wave) : Bool := w.paths.any fun p => match p.2.2.2.wait with | some (.growth ..) => true | _ => false
/-- R114: reservation freed for a requester, one wave at a time: the wave parked on a long wait that was admitted first, but never the
requester or the oldest growing wave. Its lines may be evicted from then on (R113). Of waves admitted in one step the lower slot and the
lower place in it counts as the first, and only a growth already parked makes a wave a growing one (DESIGN CHOICE, log entry 95). -/
def State.evictFor (s : State) (cid : CoreId) (req : WaveId) (need : Nat) : Nat → State
  | 0 => s
  | n + 1 =>
    if need ≤ s.regFree cid then s
    else
      let ws := s.wavesOn cid
      let key : WaveId × Wave → Nat × Nat := fun x => (x.2.age, x.2.slot * 8 + x.2.pos)
      let less : WaveId × Wave → WaveId × Wave → Bool := fun a b =>
        decide ((key a).1 < (key b).1 ∨ ((key a).1 = (key b).1 ∧ (key a).2 < (key b).2))
      let first : List (WaveId × Wave) → Option (WaveId × Wave) := fun l =>
        l.foldl (fun (m : Option (WaveId × Wave)) x => match m with | none => some x | some y => if less x y then some x else m) none
      let oldest := (first (ws.filter fun x => x.2.growing)).map Prod.fst
      match first (ws.filter fun x => !x.2.evicted && x.1 != req && some x.1 != oldest && x.2.longWait s) with
      | some x => (s.modWave x.1 fun w => { w with evicted := true }).evictFor cid req need n
      | none => s
/-- R114: the lines that a growth to `n` registers lacks. -/
def Wave.growLines (w : Wave) (n : Nat) : Nat :=
  regLines w.width (max n w.valloc) w.salloc - (if w.evicted then 0 else w.reserve)
/-- R114: what a growth frees of its core's carve, met or not. -/
def State.growEvict (s : State) (id : WaveId) (n : Nat) : State :=
  match s.wave id with
  | none => s
  | some w => s.evictFor w.core id (w.growLines n) (s.wavesOn w.core).length
/-- R114, R268, R270: the pages that a growth to `n` registers adds to a wave's image, taken if its page list and the context area have room. -/
def State.growPages (s : State) (id : WaveId) (w : Wave) (n : Nat) : Option (List Nat × State) :=
  let pages := pagesOf (waveImageBytes w.width n - s.ownBytes id w) - w.gpages.length
  if w.pages.length + w.gpages.length + pages ≤ 448 then s.takePages id.grid pages else none
/-- R114: whether a growth to `n` registers could not be met with every other wave of the core evicted, or the context area cannot back the
larger image. -/
def State.growRefused (s : State) (id : WaveId) (w : Wave) (n : Nat) : Bool :=
  decide (2048 * (s.core w.core).rcache < regLines w.width (max n w.valloc) w.salloc) || (s.growPages id w (max n w.valloc)).isNone
/-- R114, R377: a growth met if it can be now, its pages taken and its registers zero. Where another split has raised the allocation to
`n` or above meanwhile, it stays as it is (log entry 65). -/
def State.grow (s : State) (id : WaveId) (n : Nat) : Option State :=
  match s.wave id with
  | none => none
  | some w =>
    let n := max n w.valloc
    let add := w.growLines n
    let s := s.growEvict id n
    if s.regFree w.core < add then none
    else
      (s.growPages id w n).map fun r =>
        ((r.2.putWavePages id w.pages (w.gpages ++ r.1)).modWave id fun w => { w with valloc := n, evicted := false }).makeRoom w.core
/-- R377, order 3: an allocation made smaller. A path that waits for a register line that is no more goes on, to find its operand's allocation
gone. -/
def State.shrink (s : State) (id : WaveId) (n : Nat) : State :=
  match s.wave id with
  | none => s
  | some w =>
    let bytes := waveImageBytes w.width n
    let own := s.ownBytes id w
    let keep := pagesOf (bytes - own)
    let stays : Nat → Bool := fun l => decide (l < 4 + (n * w.width + 31) / 32)
    let less : Wave → Wave := fun w =>
      { w with valloc := n, vregs := w.vregs.filter (fun x => decide (x.1 < 64 * n))
               badRegs := w.badRegs.filter stays, away := w.away.filter stays, clean := w.clean.filter stays
               newer := w.newer.filter fun r => match r.1 with | .v k => decide (k < n) | _ => true }
    let s := ((s.givePages id.grid (w.gpages.drop keep)).putWavePages id w.pages (w.gpages.take keep)).modWave id fun w =>
      (less w).endWaits fun _ k => match k with | .regLine l => if stays l then none else some [] | _ => none
    if bytes < own then s.modGrid id.grid fun g =>
      { g with ctx := g.ctx.map fun e => if g.rec_.ctxBase + e.1 = w.image then (e.1, bytes) else e }
    else s
/-- VREGS (R376, R377). -/
def execVregs (h : Hdr) (d : BitVec 7) (n : Opnd) (tmo : BitVec 5) (s : State) : Host.Outcome State Fault Refusal :=
  issue (.vregs h d n tmo) s fun c s =>
    let v := c.rd1 n 1 immZ
    let old := c.w.valloc
    if !c.any then .ok s
    else if v % 8 ≠ 0 ∨ v < 8 ∨ 256 < v then .ok (s.putS c.id d (status 0x46 old))
    else if v = old then .ok (s.putS c.id d (status cOK old))
    else if v < old then .ok ((s.shrink c.id v).putS c.id d (status cOK v))
    else
      if s.growRefused c.id c.w v then
        .ok (s.putS c.id d (status cNO_RESOURCE old))
      else match s.grow c.id v with
        | some t => .ok (t.putS c.id d (status cOK v))
        | none => .ok ((s.growEvict c.id v).park c (.growth v d (c.now + 2 ^ tmo.toNat)))
/-- R114: whether a parked growth can go on: it is met, is refused, or frees something of a new long wait. -/
def State.growGoes (s : State) (id : WaveId) (n : Nat) : Bool :=
  let out : State → Nat := fun t => (t.waves.filter fun x => x.2.evicted).length
  (s.grow id n).isSome || ((s.wave id).map fun w => s.growRefused id w n).getD false || out (s.growEvict id n) != out s
/-- VREGS_GROWTH_MET (R114, R377): of the parked growths of a split's paths and of its stack's entries the first that can go on is met,
ends with NO_RESOURCE where it can be met no more, or evicts what it may. -/
def execVregsGrowthMet (p : PathId) (s : State) : Host.Outcome State Fault Refusal :=
  .next (match s.wave p.wave with
    | some w =>
      if !w.resident || w.dbg then s
      else match (w.waitsOf p.split).findSome? fun x => match x with
          | .growth n d t => if s.growGoes p.wave n then some (n, d, t) else none
          | _ => none with
        | some (n, d, t) =>
          let ends : Nat → State → State := fun code s => s.modWave p.wave fun w => w.endWaits fun w x =>
            if x = .growth n d t then some [(d, status code w.valloc)] else none
          match s.grow p.wave n with
          | some s => ends cOK s
          | none => if s.growRefused p.wave w n then ends cNO_RESOURCE s else s.growEvict p.wave n
        | none => s
    | none => s)
/-- Whether a path of a wave could issue but for its reservation. -/
def Wave.wantsIssue (w : Wave) : Bool :=
  if w.inHandler then ((w.hand.map Handler.path).map fun p => p.wait.isNone).getD false else w.nextPath.isSome
/-- WAVE_RESERVE_AGAIN (R114): a register-evicted wave whose wait has ended takes its reservation, as a growth does. -/
def execWaveReserveAgain (w : WaveId) (s : State) : Host.Outcome State Fault Refusal :=
  .next (match s.wave w with
    | some x =>
      if x.evicted && x.resident && x.wantsIssue then
        let s := s.evictFor x.core w x.reserve (s.wavesOn x.core).length
        if x.reserve ≤ s.regFree x.core then (s.modWave w fun x => { x with evicted := false }).makeRoom x.core else s
      else s
    | none => s)
/-- REGISTER_LINE_RETURN (R112, R113, R268): a register line is read from the wave's image, where its page is mapped; what has been written
to it meanwhile stands. -/
def execRegisterLineReturn (w : WaveId) (line : Nat) (s : State) : Host.Outcome State Fault Refusal :=
  .next (match s.wave w with
    | some x =>
      if x.resident && !x.evicted && x.away.contains line then
        let own : RReg × Nat → Bool := fun r => (x.lineRegs line).any fun y => y.1 == r.1 && y.2.1 == r.2
        let here := { x with away := x.away.filter (fun l => l != line), newer := x.newer.filter fun r => !own r }
        let mark : Wave → Wave := fun y => if x.newer.any own then y else { y with clean := addNew y.clean line }
        (s.setWave w (mark (((x.lineRegs line).foldl (fun (y : Wave) (r : RReg × Nat × Nat) =>
          if x.newer.contains (r.1, r.2.1) then y
          else match s.walk (s.spaceOf w.grid) (s.imageVa w x r.2.2) with
            | some (pa, _) => y.wrReg r.1 r.2.1 (BitVec.ofNat 32 (s.devNat pa 4))
            | none => y) here).endWaits fun _ k => if k = Wait.regLine line then some [] else none))).makeRoom x.core
      else s
    | none => s)

/-! The ends of waves and grids (R39, R40, R115). -/

/-- R40: whether nothing holds back the end of a wave. -/
def State.mayEnd (s : State) (id : WaveId) (w : Wave) : Bool :=
  w.lanes == 0 && (w.toks.all fun t => t.2.st != .pending && t.2.st != .suspended) &&
    (s.ops.filter fun o => o.wave == id).all fun o => match o.kind with
      | .commit _ strict _ _ => strict.isNone
      | .abort .. | .strongStore 0 _ | .strongLoad 0 _ _ _ false _ => true
      | .acquire _ _ _ silent _ => silent
      | _ => false
/-- R40, R135, R208, R268: a wave ends: its slot, its image and its pages go back, its tiles become FREE, and what its store buffer
holds is discarded; its reduction records keep their place. -/
def State.endWave (s : State) (id : WaveId) : State :=
  match s.wave id with
  | none => s
  | some w =>
    let s := s.modBlock id.grid id.block fun b =>
      { b with reds := b.reds.map fun r => if r.wave = id.wave ∧ r.place.isNone then { r with place := some (w.slot, w.pos) } else r }
    let s := s.modGrid id.grid fun g => (w.pages ++ w.gpages).foldl Grid.givePage (g.give (w.image - g.rec_.ctxBase))
    let free : Hearth → Hearth := fun h => { h with tiles := h.tiles.map fun t => if t.owner = some id then {} else t }
    let s := { s with
      waves := tdel s.waves id
      hearths := s.hearths.map fun (h : (Nat × Nat) × Hearth) =>
        (h.1, free h.2)
      savedTiles := s.savedTiles.filter fun t => t.1 != id
      suspended := s.suspended.filter fun t => t.1 != id
      ops := s.ops.filter fun o => !(o.wave == id && (match o.kind with | .acquire _ _ _ silent _ => silent | _ => false)) }
    (s.trimSpill w.core).endBlock id.grid id.block
/-- WAVE_ENDS (R40). -/
def execWaveEnds (w : WaveId) (s : State) : Host.Outcome State Fault Refusal :=
  .next (match s.wave w with
    | some x => if s.mayEnd w x then s.endWave w else s
    | none => s)
/-- GRID_RETIRE (R39, R115, R204, R279): every wave has ended, no operation of them is in flight, every child has retired, and the events of
this clock that its waves or operations have met are counted. -/
def execGridRetire (grid : Nat) (s : State) : Host.Outcome State Fault Refusal :=
  .next (match s.grid grid with
    | some g =>
      if g.ended.length = g.rec_.nblocks && !(s.ops.any fun o => o.wave.grid == grid) && (s.grids.all fun x => x.2.parent != some grid) &&
          !s.cores.any fun k => k.2.evq.any fun e => e.wave.grid == grid then
        let s := s.postEvent g.session g.tag ((List.range 48).map (fun _ => 0) ++ ({ type := 0x30 } : FaultRecord).toBytes)
        let s := { s with grids := tdel s.grids grid
                          sessions := match tget s.sessions g.session with
                            | some x => tset s.sessions g.session { x with launches := x.launches - 1 }
                            | none => s.sessions }
        s.closeIfDone g.session
      else s
    | none => s)

end Sys2Proof.Machine
end

