-- ==== Sys2Proof/Machine/Shoot.lean ====
section
/-! DEFINITION. The shootdown (06 R147, R149), host invalidations of ATS translations (18 R282), and XCINV (22 R382, R383). -/

namespace Sys2Proof.Machine

/-- Whether a virtual address lies in a range. -/
def inRange (va n x : Nat) : Bool := decide (va ≤ x ∧ x < va + n)
/-- R147: whether a physical line lies on the pages of a range as they translate now: by the tables, and for host memory as the host
has translated them on some die, the translations that the split of a larger page has dropped among them. -/
def State.onRange (s : State) (space va n line : Nat) : Bool :=
  let a := 128 * line
  (((tget s.spaces space).getD []).any fun p =>
    !isHost p.pa && decide (p.pa ≤ a + 127 ∧ a < p.pa + p.size) && inRange va n (p.va + (a - p.pa))) ||
  s.dies.any fun d => (d.dropped ++ d.ats.filterMap fun t => t.2.map fun x => (t.1, x.1)).any fun t =>
    t.1.1 == space && inRange va n (4096 * t.1.2) && decide (hostBase + t.2 ≤ a ∧ a < hostBase + t.2 + 4096)
/-- R149: the deltas of the pages, marked. -/
def markDeltas (space va n : Nat) (buf : List Delta) : List Delta :=
  buf.map fun d => if d.space == space && inRange va n (128 * d.va) then { d with marked := true } else d
/-- R149: the deltas of a wave, and those that its COMMITs in flight carry, marked. -/
def Op.markSnap (space va n : Nat) (o : Op) : Op :=
  match o.kind with
  | .commit level strict st snap => { o with kind := .commit level strict st (markDeltas space va n snap) }
  | _ => o
/-- R147, R149: every buffer's deltas and every reduction record of the pages, marked for retranslation. -/
def State.markRange (s : State) (space va n : Nat) : State :=
  let reds : List RedRec → List RedRec := fun l =>
    l.map fun r => if r.space == space && inRange va n (128 * r.va) then { r with marked := true } else r
  let wave : Wave → Wave := fun w => { w with wbuf := markDeltas space va n w.wbuf }
  let block : Block → Block := fun b => { b with buf := markDeltas space va n b.buf, reds := reds b.reds }
  let group : Group → Group := fun g => { g with buf := markDeltas space va n g.buf }
  { s with
    waves := s.waves.map fun x => (x.1, wave x.2)
    blocks := s.blocks.map fun x => (x.1, block x.2)
    groups := s.groups.map fun x => (x.1, group x.2)
    ops := s.ops.map (Op.markSnap space va n) }
/-- R147, R136: every copy of a line of the pages is recalled. -/
def State.recallWhere (s : State) (hit : Nat → Bool) : State :=
  let lines := distinct ((s.cores.flatMap fun c => (c.2.store.map Prod.fst).filter hit) ++ (s.l2.map fun x => x.1.2).filter hit)
  lines.foldl State.recallAll s
/-- R147 step 1: the translation caches drop what they hold of the pages. -/
def State.dropAts (s : State) (space va n : Nat) : State :=
  let on : (Nat × Nat) → Bool := fun t => t.1 == space && inRange va n (4096 * t.2)
  let drop : Die → Die := fun d => { d with ats := d.ats.filter fun t => !on t.1, dropped := d.dropped.filter fun t => !on t.1 }
  { s with dies := s.dies.map drop }
/-- R386: what they hold of every page of the address space that a range cuts; the lines of the rest of such a page are still held. -/
def State.dropCut (s : State) (space va n : Nat) : State :=
  (((tget s.spaces space).getD []).filter fun p => decide (va < p.va + p.size ∧ p.va < va + n)).foldl (fun s p =>
    let on : (Nat × Nat) → Bool := fun t => t.1 == space && inRange p.va p.size (4096 * t.2)
    let drop : Die → Die := fun d =>
      { d with ats := d.ats.filter fun t => !on t.1
               dropped := d.dropped ++ (d.ats.filter fun t => on t.1).filterMap fun t => t.2.map fun x => (t.1, x.1) }
    { s with dies := s.dies.map drop }) s
/-- R147, R127, R138: lookups of the pages that had not ended use the new tables; those of a pre-empted wave are made anew at its resume. -/
def State.relookRange (s : State) (space va n : Nat) : State :=
  let ops := s.ops.filter fun o => !o.done && o.space == space && o.openOf.isSome && ((s.wave o.wave).map Wave.resident).getD false
  ops.foldl (fun s o => (s.openRelook o.id (inRange va n)).openSettle o.wave) s.rebindAll
/-- R147, R149: a shootdown of a range, in one step: its lines are recalled, its deltas and records marked, and what D0 holds of its
committed host lines written back before the tables change; `tables` is what changes them. -/
def State.shootdown (s : State) (space va n : Nat) (tables : State → State) : State :=
  let hit := s.onRange space va n
  (tables ((((s.recallWhere hit).markRange space va n).flushHost fun l => !hit l).dropAts space va n)).relookRange space va n

/-- ATS_INVALIDATION (R147, R282): a host invalidation of `count` pages of a size, and its completion. -/
def execAtsInvalidation (space va size count : Nat) (s : State) : Host.Outcome State Fault Refusal :=
  .next (let t := s.shootdown space va (size * count) id
    { t with atsDone := t.atsDone ++ [(space, va, size, count)] })

/-- BAD_SIZE. -/
def cBAD_SIZE : Nat := 0x46
/-- The bytes of a page size code (R145, R382). -/
def pageBytes (ps : Nat) : Nat := match ps with | 0 => 4096 | 1 => 65536 | 2 => 2097152 | _ => 1073741824
/-- XCINV (R382, R383). -/
def execXcinv (h : Hdr) (d x : BitVec 7) (ps : BitVec 2) (s : State) : Host.Outcome State Fault Refusal :=
  issue (.xcinv h d x ps) s fun c s =>
    let va := (c.sPair x).toNat
    let count := (c.s (x + 3)).toNat
    let size := pageBytes ps.toNat
    if !c.any then .ok s
    else if !c.w.firmware then .ok (s.putS c.id d (status cNO_EFFECT 0))
    else if va % size ≠ 0 ∨ 2 ^ 56 ≤ va then .ok (s.putS c.id d (status cBAD_SIZE 0))
    else if count = 0 then .ok (s.putS c.id d (status cNO_EFFECT 0))
    else .ok (s.addOp (c.newOp s (.xcinv (c.s (x + 2)).toNat va size count d)))
/-- XCINV_COMPLETION (R383): steps 1 to 3 of R147, and the status. -/
def execXcinvCompletion (op : Nat) (s : State) : Host.Outcome State Fault Refusal :=
  .next (match s.op op with
    | some o => match o.kind with
      | .xcinv space va size count st => ((s.shootdown space va (size * count) id).putStatus o.wave st (status cOK 0)).opDone op
      | _ => s
    | none => s)

end Sys2Proof.Machine
end

