-- ==== Sys2Proof/Machine/System.lean ====
section
/-! DEFINITION. The privileged class and IFENCE: TRAP, TRET, HALT, the special registers, messages, and the fetch of code lines (04
R74, R90-R92; 17 R258, R260; 20 R320, R323; 21 R334-R341; 22 R373, R374). -/

namespace Sys2Proof.Machine

/-! Fetch. -/

/-- R71, R74: whether a code line's trailer is zero. -/
def trailerOk (bs : List Byte) : Bool := (bs.drop 120).all fun b => b == 0
/-- R74: a trap at the fetch of the instruction at the PC. The rule names no trap address, and the model reports the PC (DESIGN CHOICE,
log entry 53). -/
def Ctx.fetchTrap (c : Ctx) (cause : Cause) (sub : Nat) : Trap := c.exact cause sub .none c.mask c.pc
/-- CODE_LINE_FETCH (R74, R323): the line of a candidate's PC is fetched as the device level holds it, or the fetch traps. It takes its place in
the L2 of the die (log entry 28). The bytes are those of the device level whatever the L2 has still to apply, where the table of R182 would
still allow old ones without an ACQUIRE (DEDUCED, log entry 100). -/
def execCodeLineFetch (p : PathId) (s : State) : Host.Outcome State Fault Refusal :=
  .next (match ({ s with cur := p } : State).issuer with
    | none => s
    | some c =>
      let space := s.spaceOf c.id.grid
      match (s.core c.w.core).codeLine space c.pc with
      | some l => if l.2 then s.takeTrap c.id (c.fetchTrap .dataError 0) else s
      | none =>
        match s.look c.w.core.die space (128 * pcLine c.pc) needX with
        | .wait => s
        | .fail => s.takeTrap c.id (c.fetchTrap .xlate 0)
        | .ok pa =>
          let r := s.viaL2 c.w.core.die (pa / 128) 2
          let bs := s.devRdN (128 * (pa / 128)) 128
          if !s.lineUp (pa / 128) then s
          else if s.lineBad c.w.core.die (pa / 128) then s.takeTrap c.id (c.fetchTrap .dataError 0)
          else if !trailerOk bs then s.takeTrap c.id (c.fetchTrap .illegal 1)
          else r.1.modCore c.w.core fun k => { k with fetch := tset k.fetch (space, pcLine c.pc) (bs, false) })
/-- UNASSIGNED_OPCODE (R90 step 2, R92). -/
def execUnassignedOpcode (_h : Hdr) (_opcode : BitVec 10) (s : State) : Host.Outcome State Fault Refusal :=
  match s.issuer with
  | none => .fault .noPath
  | some c => .next (s.takeTrap c.id (c.exact .illegal 2 .none c.mask 0))
/-- IFENCE (R169, R323): every instruction held in the core's fetch buffers is invalidated. -/
def execIfence (h : Hdr) (s : State) : Host.Outcome State Fault Refusal :=
  issue (.ifence h) s fun c s => .ok (if c.any then s.modCore c.w.core fun k => { k with fetch := [] } else s)

/-! Traps, their return, and HALT. -/

/-- TRAP (R373): a SOFT trap after the instruction; in handler mode it has no effect and the wave halts (R260). -/
def execTrap (h : Hdr) (code : BitVec 20) (s : State) : Host.Outcome State Fault Refusal :=
  issue (.trap h code) s fun c s =>
    let a := code.zeroExtend 64
    if !c.any then .ok s
    else if c.hand then .trap .soft 0 .none c.sel a
    else .trapAfter s .soft .none c.sel a (nextPc c.pc) 0
/-- TRET (R260, R374). -/
def execTret (h : Hdr) (s : State) : Host.Outcome State Fault Refusal :=
  issue (.tret h) s fun c s =>
    if !c.hand then .trap .illegal 9 .none c.mask 0
    else if !c.any then .ok s
    else if !pcOk c.w.trappc then .trap .misalign 0 .none c.mask c.w.trappc
    else .raw (((s.markIssue c).advance (.tret h) c c.pc).endHandler c.id c.w.trappc)
/-- The record of a HALTED wave; the sub-code holds the cause of the trap being handled (R265). -/
def Ctx.haltRecord (c : Ctx) : FaultRecord :=
  { c.w.mkRecord c.id c.split .soft with
    type := 0x29, sub := if c.hand then (c.w.trapcause.truncate 8).toNat else 0, pc := c.pc }
/-- HALT (R81, R82, R260, R320): its stall count and its yield count from its issue, and bear on the path when it is resumed. -/
def execHalt (h : Hdr) (s : State) : Host.Outcome State Fault Refusal :=
  issue (.halt h) s fun c s =>
    if !c.any then .ok s
    else
      let s := s.issued (.halt h) c c.pc
      match s.wave c.id with
      | some w => .raw (s.haltWave c.id w c.split c.second c.haltRecord)
      | none => .raw s

/-! Special registers. -/

/-- %clock (R22, R286, R334): clocks since the die's last reset, of the die's synchronous clock, by the core's own count. -/
def State.clockWord (s : State) (cid : CoreId) : DWord :=
  BitVec.ofNat 64 (s.clk cid.die - (s.die cid.die).base) + Config.clockSkew cid.die cid.core
/-- R28, R202, R258, R334: the value of a special register but %lane. -/
def Ctx.special (c : Ctx) (s : State) (n : Nat) : Nat :=
  let k := s.core c.w.core
  let cl := k.exc.getD (selClass c.w.sel) {}
  match n with
  | 0x01 => c.id.wave
  | 0x02 => c.w.slot
  | 0x03 => c.split
  | 0x04 => c.id.block
  | 0x05 => c.grid.rec_.threads
  | 0x06 => s.groupOf c.id.grid c.id.block
  | 0x07 => c.id.grid
  | 0x08 => c.w.core.core
  | 0x09 => c.w.core.die
  | 0x0A => c.w.width
  | 0x0B => c.grid.depth
  | 0x0C => c.grid.cls
  | 0x0D => (s.clockWord c.w.core).toNat
  | 0x10 => c.w.trapcause.toNat
  | 0x11 => c.w.trappc.toNat
  | 0x12 => c.w.trapaddr.toNat
  | 0x18 => (excctlWord k c.w.sel).toNat
  | 0x19 => (exccountWord cl).toNat
  | 0x1A => cl.window
  | _ => k.fired.toNat
/-- MFS (R334, R335). -/
def execMfs (h : Hdr) (d : Opnd) (n : BitVec 8) (s : State) : Host.Outcome State Fault Refusal :=
  issue (.mfs h d n) s fun c s =>
    let k := sregRegs n.toNat
    let x := c.special s n.toNat
    match d with
    | .v r => .ok (c.fix s 4 (vecWrites r.toNat k (c.lanes.map fun l => (l, if n = 0 then l else x))))
    | .s r => .ok (if c.any then c.fix s 2 (scaWrites r.toNat k x) else s)
    | _ => .ok s
/-- MTS of a register with no field that MTS may write (R5, R334). -/
def execMts (h : Hdr) (a : Opnd) (n : BitVec 8) (s : State) : Host.Outcome State Fault Refusal :=
  issue (.mts h a n) s fun _ s => .ok s
/-- R336: the write of a core's counting state, which applies at the end of the clock. -/
def Ctx.excWrite (c : Ctx) (s : State) (reg : Nat) (x : Word) : State :=
  s.modCore c.w.core fun k =>
    { k with excWrites := k.excWrites ++ [{ part := c.w.part, reg := reg, sel := selClass c.w.sel, val := x }] }
/-- The 32-bit source of MTS. -/
def Ctx.src32 (c : Ctx) (a : Opnd) : Word := BitVec.ofNat 32 (c.rd1 a 1 immS)
/-- MTS %excctl (R202, R336): SEL at once, the core's fields at the end of the clock. -/
def execMtsExcctl (h : Hdr) (a : Opnd) (s : State) : Host.Outcome State Fault Refusal :=
  issue (.mtsExcctl h a) s fun c s =>
    let x := c.src32 a
    .ok (if c.any then c.excWrite (s.modWave c.id fun w => { w with sel := x.extractLsb' 24 3 }) 0x18 x else s)
/-- MTS %exccount (R202, R203, R336). -/
def execMtsExccount (h : Hdr) (a : Opnd) (s : State) : Host.Outcome State Fault Refusal :=
  issue (.mtsExccount h a) s fun c s => .ok (if c.any then c.excWrite s 0x19 (c.src32 a) else s)
/-- MTS %excwin (R202, R203, R336). -/
def execMtsExcwin (h : Hdr) (a : Opnd) (s : State) : Host.Outcome State Fault Refusal :=
  issue (.mtsExcwin h a) s fun c s => .ok (if c.any then c.excWrite s 0x1A (c.src32 a) else s)
/-- MTS %faultmask (R202, R336). -/
def execMtsFaultmask (h : Hdr) (a : Opnd) (s : State) : Host.Outcome State Fault Refusal :=
  issue (.mtsFaultmask h a) s fun c s => .ok (if c.any then c.excWrite s 0x1B (c.src32 a) else s)
/-- MTS %trappc (R258, R336): the PC is stored as given. -/
def execMtsTrappc (h : Hdr) (a : Opnd) (s : State) : Host.Outcome State Fault Refusal :=
  issue (.mtsTrappc h a) s fun c s =>
    .ok (if c.any then s.modWave c.id fun w => { w with trappc := BitVec.ofNat 64 (c.rd1 a 2 immS) } else s)

/-! Messages (R339-R341). -/

/-- NO_MAILBOX. -/
def cNO_MAILBOX : Nat := 0x45
/-- MSG_FULL. -/
def cMSG_FULL : Nat := 0x44
/-- R339: a sender word. -/
def senderWord (cid : CoreId) (slot pos : Nat) (hand firmware : Bool) : Word :=
  BitVec.ofNat 32 (262144 * pos + (if hand then 131072 else 0) + (if firmware then 65536 else 0) + 16384 * cid.die + 256 * cid.core + slot)
/-- R339: the sender word of a wave. -/
def Wave.sender (w : Wave) (hand : Bool) : Word := senderWord w.core w.slot w.pos hand w.firmware
/-- MSGS (R340). -/
def execMsgs (h : Hdr) (d x : BitVec 7) (b : Opnd) (s : State) : Host.Outcome State Fault Refusal :=
  issue (.msgs h d x b) s fun c s =>
    let m : Msg := { sender := c.w.sender c.hand, words := (List.range 16).map fun k => c.w.sreg (x.toNat + k) }
    .ok (if c.any then s.addOp (c.newOp s (.msgs (BitVec.ofNat 32 (c.rd1 b 1 immZ)) m d)) else s)
/-- R339: the wave that a reply-slot operand names, if its reserved bits are zero and one is resident there. -/
def State.replyWave (s : State) (box : Word) : Option WaveId :=
  if box.extractLsb' 21 10 != 0 || box.extractLsb' 16 2 != 0 then none
  else
    let cid : CoreId := ⟨(box.extractLsb' 14 2).toNat, (box.extractLsb' 8 6).toNat⟩
    ((s.wavesOn cid).find? fun x => x.2.slot == (box.extractLsb' 0 8).toNat && x.2.pos == (box.extractLsb' 18 3).toNat).map Prod.fst
/-- R340: the status of a message, and the state once it is sent. -/
def State.send (s : State) (box : Word) (m : Msg) : State × Word :=
  if box.getLsbD 31 then
    match (if m.sender.getLsbD 16 then s.replyWave box else none) with
    | none => (s, status cNO_MAILBOX 0)
    | some id =>
      if !s.up (box.extractLsb' 14 2).toNat then (s, status cOFFLINE 0)
      else if ((s.wave id).bind Wave.reply).isSome then (s, status cMSG_FULL 0)
      else (s.modWave id fun w => { w with reply := some m }, status cOK 0)
  else if box.extractLsb' 4 27 != 0 then (s, status cNO_MAILBOX 0)
  else
    let die := (box.extractLsb' 2 2).toNat
    let n := (box.extractLsb' 0 2).toNat
    if !s.up die then (s, status cOFFLINE 0)
    else if 16 ≤ ((s.die die).boxes.getD n []).length then (s, status cMSG_FULL 0)
    else (s.modDie die fun d => { d with boxes := lmod d.boxes n fun l => l ++ [m] }, status cOK 0)
/-- MESSAGE_SENT (R340): once every earlier outbound access of the wave has performed, and every earlier message of it is sent. -/
def execMessageSent (op : Nat) (s : State) : Host.Outcome State Fault Refusal :=
  .next (match s.op op with
    | some o => match o.kind with
      | .msgs box m st =>
        if s.outboundClear o && (s.earlier o).all fun x => (match x.kind with | .msgs .. => false | _ => true) then
          let r := s.send box m
          (r.1.putStatus o.wave st r.2).opDone op
        else s
      | _ => s
    | none => s)
/-- R13, R339, R340: a firmware wave of an online die sends a message (log entry 10). -/
def State.fwSend (s : State) (die core slot pos : Nat) (hand : Bool) (box : Word) (words : List Word) : State :=
  if s.up die && decide (die < 4 ∧ core < 4 ∧ slot < 144 ∧ pos < 8) then
    (s.send box { sender := senderWord ⟨die, 48 + core⟩ slot pos hand true, words := (List.range 16).map fun k => words.getD k 0 }).1
  else s
/-- R13, R341: a firmware wave of an online die takes the oldest message of its core's mailbox (log entry 10). -/
def State.fwTake (s : State) (die core : Nat) : State :=
  if s.up die then s.modDie die fun d => { d with boxes := lmod d.boxes core fun l => l.tail } else s
/-- R341: what a taken message writes. -/
def Wave.takeMsg (w : Wave) (d x : BitVec 7) (m : Msg) (left : Nat) : Wave :=
  (List.range 16).foldl (fun w k => w.putS (x + BitVec.ofNat 7 k) (m.words.getD k 0))
    ((w.putS d (status cOK left)).putS (d + 1) m.sender)
/-- MSGR (R341). -/
def execMsgr (h : Hdr) (d x : BitVec 7) (s : State) : Host.Outcome State Fault Refusal :=
  issue (.msgr h d x) s fun c s =>
    if !c.any then .ok s
    else if c.w.firmware && decide (48 ≤ c.w.core.core) then
      let n := c.w.core.core - 48
      match (s.die c.w.core.die).boxes.getD n [] with
      | [] => .ok (s.putS c.id d (status cNO_EFFECT 0))
      | m :: t => .ok ((s.modDie c.w.core.die fun k => { k with boxes := lmod k.boxes n fun _ => t }).modWave c.id fun w =>
          w.takeMsg d x m t.length)
    else match c.w.reply with
      | none => .ok (s.putS c.id d (status cNO_EFFECT 0))
      | some m => .ok (s.modWave c.id fun w => { w with reply := none }.takeMsg d x m 0)

end Sys2Proof.Machine
end

