-- ==== Sys2Proof/Machine/Sched.lean ====
section
/-! DEFINITION. The scheduler's own events: overdue waves (02 R50), fixed-latency results (04 R84-R86) and the windows of exception
counting (11 R203). -/

namespace Sys2Proof.Machine

/-- The class of a wave's grid. -/
def State.waveCls (s : State) (id : WaveId) : Nat := s.clsOf id.grid
/-- R50: whether a wave is of the highest class, numerically the least, resident in its partition. -/
def State.topClass (s : State) (id : WaveId) (w : Wave) : Bool :=
  (s.wavesOn w.core).all fun x => x.2.part != w.part || decide (s.waveCls id ≤ s.waveCls x.1)
/-- R50: whether a wave becomes overdue. -/
def State.becomesOverdue (s : State) (id : WaveId) (w : Wave) : Bool :=
  w.resident && w.overdue.isNone && s.topClass id w && (match w.readySince with | some t => decide (t + 32 ≤ s.clk w.core.die) | none => false)
/-- OVERDUE (R50). -/
def execOverdue (w : WaveId) (s : State) : Host.Outcome State Fault Refusal :=
  .next (match s.wave w with
    | some x => if s.becomesOverdue w x then s.setWave w { x with overdue := some (s.clk x.core.die) } else s
    | none => s)

/-- R84, R85: result `n` of a wave lands, and before it every earlier one that may land no later. -/
def Wave.landNth (w : Wave) (n : Nat) : Wave :=
  match w.lats[n]? with
  | none => w
  | some f =>
    let r := landSplit (fun x => x.before f) (w.lats.take n)
    { (r.1 ++ [f]).foldl Wave.land1 w with lats := r.2 ++ w.lats.drop (n + 1) }
/-- FIXED_LATENCY_RESULT_LANDS (R84). -/
def execFixedLatencyResultLands (w : WaveId) (n : Nat) (s : State) : Host.Outcome State Fault Refusal :=
  .next (match s.wave w with
    | some x => match x.lats[n]? with
      | some f => if f.due ≤ s.clk x.core.die then s.setWave w (x.landNth n) else s
      | none => s
    | none => s)

/-- EXC_WINDOW_END (R203). -/
def execExcWindowEnd (core : CoreId) (cls : Nat) (s : State) : Host.Outcome State Fault Refusal :=
  .next (if ((s.core core).exc.getD cls {}).ended (s.clk core.die) then s.modCore core fun k => { k with exc := lmod k.exc cls ExcClass.next } else s)

end Sys2Proof.Machine
end

