-- ==== Sys2Proof/Machine/Ras.lean ====
section
/-! DEFINITION. Reliability: corrected errors, uncorrectable errors, links and temperature (01 R24; 17 R267, R271-R273). -/

namespace Sys2Proof.Machine

/-- The structure codes of R271, and behind them the counters of the stacks (16 on) and of the links (32 on) of a die (R273). -/
def ceCounterOk (die counter : Nat) : Bool :=
  decide (1 ≤ counter ∧ counter ≤ 10) || decide (16 ≤ counter ∧ counter ≤ 18) ||
    (decide (32 ≤ counter ∧ counter ≤ 35) && counter - 32 != die)
/-- The structure code of a counter. -/
def ceCode (counter : Nat) : Nat := if counter < 16 then counter else if counter < 32 then 9 else 10
/-- R266: the detail of an error record: the structure code and the entry index or physical address. -/
def errorDetail (code x : Nat) : BitVec 128 := BitVec.ofNat 128 (code + 4294967296 * (x % 2 ^ 64))
/-- A counter of a die. -/
def Die.counter (d : Die) (counter : Nat) : CeCounter := (tget d.ce counter).getD {}
/-- R273: whether a counter's window ends at or before this clock. -/
def CeCounter.ended (x : CeCounter) (now : Nat) : Bool := x.window != 0 && decide (x.started + x.window ≤ now)
/-- CE_WINDOW_END (R203, R273). -/
def execCeWindowEnd (die counter : Nat) (s : State) : Host.Outcome State Fault Refusal :=
  .next (
    let x := (s.die die).counter counter
    if x.ended (s.clk die) then s.modDie die fun d =>
      { d with ce := tset d.ce counter { x with count := 0, armed := true, started := x.started + x.window } }
    else s)
/-- CORRECTED_ERROR (R271, R273). -/
def execCorrectedError (die counter : Nat) (s : State) : Host.Outcome State Fault Refusal :=
  .next (
    if !ceCounterOk die counter || 4 ≤ die then s
    else
      let x := (s.die die).counter counter
      let n := min (x.count + 1) 0xFFFF
      let fires := x.armed && x.count == x.threshold && n == x.threshold + 1
      let s := s.modDie die fun d => { d with ce := tset d.ce counter { x with count := n, armed := x.armed && !fires } }
      if fires then
        let at_ := if counter < 16 then (Config.freeWord s.fresh 0).toNat else counter % 16
        { s with fresh := s.fresh + 1 }.sendRecord none
          { type := 0x26, die := die, hearth := 0xFF, detail := errorDetail (ceCode counter) at_ }
      else s)

/-- R267, R271, R272: the record of an uncorrectable SRAM error. -/
def sramRecord (cid : CoreId) (code x : Nat) : FaultRecord :=
  { type := 0x24, die := cid.die, core := cid.core, hearth := 0xFF, detail := errorDetail code x }
/-- The same, of a wave. -/
def Wave.sramRecord (w : Wave) (id : WaveId) (code x : Nat) : FaultRecord :=
  { Sys2Proof.Machine.sramRecord w.core code x with slot := w.slot, grid := id.grid, block := id.block, wave := id.wave }
/-- Deltas of a virtual line found uncorrectable. -/
def spoilDeltas (va : Nat) (buf : List Delta) : List Delta := buf.map fun d => if d.va = va then { d with bad := true } else d
/-- SRAM_UE (R136, R267, R271): an uncorrectable error in a structure of R271. Which copies an entry of a translation cache tracked is open:
the model recalls, at every die, the lines of the one 4 KiB page that the event names (DESIGN CHOICE, log entry 82). An error of a pantry stays
with its share where its block is pre-empted and resumed, and is found in a saved share too (DESIGN CHOICE, log entry 102). -/
def execSramUe (site : UeSite) (s : State) : Host.Outcome State Fault Refusal :=
  .next (match site with
    | .regs id line written => match s.wave id with
      | some w =>
        (if written then s.setWave id { w with badRegs := addNew w.badRegs line } else s).sendRecord (some id.grid) (w.sramRecord id 1 line)
      | none => s
    | .pantry grid block share off => match s.block grid block with
      | some b =>
        let spoil : Share → Share := fun x => { x with bad := addNew x.bad off }
        (s.modBlock grid block fun b => { b with shares := lmod b.shares share spoil }).sendRecord (some grid)
          { sramRecord ⟨b.die, b.base + share⟩ 2 off with grid := grid, block := block }
      | none => s
    | .lineStore core line =>
      if (tget (s.core core).store line).isSome then
        (s.recall core line).sendRecord none { sramRecord core 3 (128 * line) with addr := BitVec.ofNat 64 (128 * line) }
      else s
    | .waveBuffer id va => match s.wave id with
      | some w =>
        let carried : Op → Op := fun o => match o.kind with
          | .commit level strict st snap => if o.wave = id then { o with kind := .commit level strict st (spoilDeltas va snap) } else o
          | _ => o
        (({ s with ops := s.ops.map carried } : State).setWave id { w with wbuf := spoilDeltas va w.wbuf }).sendRecord (some id.grid)
          { w.sramRecord id 4 (128 * va) with addr := BitVec.ofNat 64 (128 * va) }
      | none => s
    | .blockBuffer grid block va => match s.block grid block with
      | some b =>
        (s.modBlock grid block fun b => { b with buf := spoilDeltas va b.buf }).sendRecord (some grid)
          { sramRecord ⟨b.die, b.base⟩ 4 (128 * va) with grid := grid, block := block, addr := BitVec.ofNat 64 (128 * va) }
      | none => s
    | .clusterBuffer grid group va => match s.group grid group with
      | some g =>
        (s.modGroup grid group fun g => { g with buf := spoilDeltas va g.buf }).sendRecord (some grid)
          { sramRecord ⟨g.die, g.base⟩ 4 (128 * va) with grid := grid, addr := BitVec.ofNat 64 (128 * va) }
      | none => s
    | .fetch core space line => match tget (s.core core).fetch (space, line) with
      | some l =>
        (s.modCore core fun k => { k with fetch := tset k.fetch (space, line) (l.1, true) }).sendRecord none
          { sramRecord core 5 (128 * line) with addr := BitVec.ofNat 64 (128 * line) }
      | none => s
    | .tile die hearth tile cell =>
      let grid := ((s.hearth (die, hearth)).tile tile).owner.map WaveId.grid
      let spoil : Tile → Tile := fun t => { t with bad := addNew t.bad cell }
      (s.modHearth (die, hearth) fun h => h.modTile tile spoil).sendRecord grid
        { sramRecord ⟨die, 2 * hearth⟩ 6 cell with hearth := hearth, tile := tile, grid := grid.getD 0 }
    | .directory die line =>
      (s.recallAll line).sendRecord none { sramRecord ⟨die, 0⟩ 8 (128 * line) with addr := BitVec.ofNat 64 (128 * line) }
    | .reduction grid block n => match s.block grid block with
      | some b => match b.reds[n]? with
        | some r =>
          (s.modBlock grid block fun b => { b with reds := lmod b.reds n fun r => { r with bad := true } }).sendRecord (some grid)
            { sramRecord ⟨b.die, b.base + r.wave % b.ncores⟩ 4 (128 * r.va) with
              grid := grid, block := block, wave := r.wave, addr := BitVec.ofNat 64 (128 * r.va) }
        | none => s
      | none => s
    | .latch die hearth => match s.mxHead (die, hearth) with
      | some (m, o) =>
        (s.modMx (die, hearth) m.id fun m => { m with spoiled := m.spoiled || m.begun }).sendRecord (some o.wave.grid)
          { sramRecord ⟨die, 2 * hearth⟩ 6 0 with hearth := hearth, grid := o.wave.grid }
      | none => s
    | .translation die space page =>
      let hit := s.onRange space (4096 * page) 4096
      (((s.recallWhere hit).modDie die fun d => { d with ats := tdel d.ats (space, page) }).relookRange space (4096 * page) 4096).sendRecord none
        { sramRecord ⟨die, 0⟩ 8 (4096 * page) with addr := BitVec.ofNat 64 (4096 * page) })
/-- MEMORY_UE (R271, R272): in an L2, clean or dirty, or in HBM. A clean L2 line is fetched again from its home; a dirty one is written back as
it stands, and every later read of the line finds the error again. -/
def execMemoryUe (die line : Nat) (hbm : Bool) (dirty : Bool) (s : State) : Host.Outcome State Fault Refusal :=
  .next (
    let s := { s with
      badLines := if hbm || dirty then addNew s.badLines line else s.badLines
      l2 := if hbm then s.l2 else s.l2.filter fun x => if dirty then x.1.2 != line else x.1 != (die, line) }
    s.sendRecord none
      { type := 0x25, die := die, hearth := 0xFF, addr := BitVec.ofNat 64 (128 * line)
        detail := errorDetail (if hbm then 9 else 7) (128 * line) })
/-- LINK (R10, R265, R266, R271). Whether a retraining puts a failed lane back in use R10 leaves open: the model takes it out of the failed
lanes (DESIGN CHOICE, log entry 41). How a link's lanes are numbered from its two ends the spec does not say either: the model keys a lane by the end
that names it, and a repair or a retraining by that end's name (DESIGN CHOICE, log entry 41). -/
def execLink (die other lane : Nat) (retrained : Bool) (s : State) : Host.Outcome State Fault Refusal :=
  .next (
    let s := s.modDie die fun d => { d with
      failedLanes := if retrained then d.failedLanes.filter fun x => x != (other, lane) else addNew d.failedLanes (other, lane) }
    s.sendRecord none { type := 0x27, die := die, hearth := 0xFF
                        detail := BitVec.ofNat 128 (other + 256 * lane + 65536 * (if retrained then 2 else 1)) })
/-- THERMAL (R24, R266): a die's junction temperature in units of 0.25 °C; above 105 °C a record is sent. -/
def execThermal (die : Nat) (quarters : BitVec 16) (s : State) : Host.Outcome State Fault Refusal :=
  .next (
    let s := s.modDie die fun d => { d with temp := quarters }
    if 420 < quarters.toNat then
      s.sendRecord none { type := 0x28, die := die, hearth := 0xFF, detail := BitVec.ofNat 128 quarters.toNat }
    else s)

end Sys2Proof.Machine
end

