-- ==== Sys2Proof/Machine/Frame.lean ====
section
/-! DEFINITION. The letterbox, frames, how a call is served, sessions and LAUNCH calls, and frames between peers (18 R277-R280, R283,
R287). -/

namespace Sys2Proof.Machine

/-- The state that an outcome goes on to, or the one it started from. -/
def follow (o : Host.Outcome State Fault Refusal) (s : State) : State := match o with | .next t => t | _ => s
/-- The lowest-numbered die that is online and not in warm reset, whose service quad serves the calls (R275, R280). -/
def State.firstUp (s : State) : Nat := ((List.range 4).find? fun d => s.up d).getD 0

/-! Headers. -/

/-- R278: a header from its 32 bytes. -/
def hdrOfBytes (bs : List Byte) : FrameHdr :=
  { code := bs.getD 0 0, version := bs.getD 1 0, len := BitVec.ofNat 16 (field bs 2 2), session := BitVec.ofNat 32 (field bs 4 4)
    tag := BitVec.ofNat 64 (field bs 8 8), seq := BitVec.ofNat 32 (field bs 0x10 4), resv := BitVec.ofNat 96 (field bs 0x14 12) }
/-- The bytes of a header. -/
def hdrBytes (h : FrameHdr) : List Byte :=
  [h.code, h.version] ++ leBytes 2 h.len.toNat ++ leBytes 4 h.session.toNat ++ leBytes 8 h.tag.toNat ++ leBytes 4 h.seq.toNat ++
    leBytes 12 h.resv.toNat
/-- R280, R283: the codes of calls, and that of DATA frames. -/
def knownCode (c : Nat) : Bool :=
  decide (1 ≤ c ∧ c ≤ 8) || decide (0x10 ≤ c ∧ c ≤ 0x14) || decide (0x20 ≤ c ∧ c ≤ 0x2A) || c == 0x40
/-- R278: the first byte at which a header is malformed. -/
def hdrBad (h : FrameHdr) : Option Nat :=
  firstBad ([(0, knownCode h.code.toNat), (1, h.version == 1), (2, decide (h.len.toNat ≤ 4064))] ++
    (List.range 12).map fun k => (0x14 + k, h.resv.extractLsb' (8 * k) 8 == 0))
/-- R277, R278, R283: the first byte at which the header of a caller's frame is malformed: DATA frames come from peers alone. -/
def hdrRefused (c : Caller) (h : FrameHdr) : Option Nat :=
  match c with
  | .slot _ => if h.code = 0x40 then some 0 else hdrBad h
  | .peer .. => hdrBad h
/-- R277: the bytes of a taken frame. -/
def Frame.list (f : Frame) (off n : Nat) : List Byte := (List.range n).map fun k => sget 0 f.bytes (off + k)
/-- The frame in a slot. -/
def State.frameAt (s : State) (n : Nat) : Option Frame := s.frames.find? fun f => f.slot == n
/-- The header of a frame. -/
def State.hdrOf (s : State) : Caller → Option FrameHdr
  | .slot n => (s.frameAt n).map fun f => hdrOfBytes (f.list 0 32)
  | .peer _ _ h _ => some h
/-- The payload of a frame. -/
def State.payloadOf (s : State) : Caller → List Byte
  | .slot n => ((s.frameAt n).map fun f => f.list 0x20 4064).getD []
  | .peer _ _ _ p => p

/-! Refusals and the service of a call. -/

/-- A refusal of a frame, which no repeat draws again. -/
def State.refuseFrame (s : State) (c : Caller) (h : FrameHdr) (code detail : Nat) : State :=
  s.deliver { session := h.session.toNat, caller := some c, tag := h.tag, status := status code detail, result := [] }
/-- R277: whether the slot of a frame was written again before its reply. -/
def State.rewritten (s : State) : Caller → Bool
  | .slot n => ((s.frameAt n).map Frame.rewritten).getD false
  | .peer .. => false
/-- R277, R8: whether a frame whose slot was written again is refused; else it runs. Free: log entry 36. -/
def State.mixRefused (s : State) (c : Caller) (h : FrameHdr) : Bool :=
  s.rewritten c && (Config.freeWord s.fresh (2 + h.seq.toNat + 2 ^ 32 * h.tag.toNat)).getLsbD 0
/-- R284: whether calls wait for a new firmware image to start. -/
def State.fwWaits (s : State) : Bool := (s.die s.firstUp).staged.isSome
/-- R287: whether a frame of the session that comes before is taken and not yet served. -/
def State.earlierFrame (s : State) (session : Nat) (last seq : Word) : Bool :=
  s.frames.any fun f =>
    let h := hdrOfBytes (f.list 0 32)
    h.session.toNat == session && h.seq != last && decide ((h.seq - last).toNat < (seq - last).toNat)
/-- A byte offset that the spec leaves open: the layout of most payloads is not in it. -/
def State.freeOffset (s : State) : Nat := (Config.freeWord s.fresh 1).toNat % 4096
/-- Whether a frame's call has been served already. -/
def State.wasServed (s : State) : Caller → Bool
  | .slot n => ((s.frameAt n).map Frame.served).getD false
  | .peer .. => false
/-- What serving a frame gives: nothing yet, or a state in which the frame is served. -/
def State.afterServe (s : State) (c : Caller) : Option State → State
  | none => s
  | some t => match c with
    | .slot n =>
      let mark : Frame → Frame := fun f => if f.slot = n then { f with served := true } else f
      { t with frames := t.frames.map mark }
    | .peer .. => t
/-- R277-R280, R284, R287: how a call is served: its header is checked, then its session, then its sequence number. `run` does what
the call does, or says that it cannot yet. Calls wait for a new firmware image, but for a DIE_RESET, which is BUSY. -/
def State.serveFrame (s : State) (c : Caller) (h : FrameHdr) (code : Nat) (run : State → Session → Reply → Option State) : Option State :=
  let n := h.session.toNat
  match hdrRefused c h with
  | some o => some (s.refuseFrame c h cBAD_FRAME o)
  | none =>
    if h.code.toNat ≠ code ∨ (s.fwWaits = true ∧ code ≠ 0x24) then none
    else if s.mixRefused c h then some (({ s with fresh := s.fresh + 1 } : State).refuseFrame c h cBAD_FRAME s.freeOffset)
    else match tget s.sessions n with
      | none => some (s.refuseFrame c h cNO_SESSION 0)
      | some x =>
        if (n == 0) != decide (0x20 ≤ code ∧ code < 0x40) then some (s.refuseFrame c h cBAD_FRAME (if n = 0 then 0 else 4))
        else if h.seq = x.fseq ∧ x.begun = true then x.last.map fun (r : Reply) => s.deliver { r with caller := some c }
        else if h.seq ≠ x.fseq + 1 then
          if s.earlierFrame n x.fseq h.seq then none else some (s.refuseFrame c h cBAD_FRAME 0x10)
        else
          run { s with sessions := tset s.sessions n { x with fseq := h.seq, begun := true, last := none } } x
            { session := n, caller := some c, tag := h.tag, seq := h.seq, status := 0, result := [] }
/-- R278: a call served, if it can be now. -/
def State.serve (s : State) (c : Caller) (code : Nat) (run : State → Session → Reply → Option State) : State :=
  match s.hdrOf c with
  | none => s
  | some h => if s.wasServed c then s else s.afterServe c (s.serveFrame c h code run)
/-- A call's reply. -/
def State.reply (s : State) (r : Reply) (st : Word) (result : List Byte) : Option State :=
  some (s.answer { r with status := st, result := result })
/-- R278: a call refused for its payload. -/
def State.badCall (s : State) (r : Reply) : Option State :=
  ({ s with fresh := s.fresh + 1 } : State).reply r (status cBAD_FRAME s.freeOffset) []

/-! The letterbox (R277). -/

/-- R277: a slot's frame is taken; one whose header is malformed is refused at once. -/
def State.takeFrame (s : State) (n : Nat) : State :=
  let f : Frame := { slot := n, bytes := (s.letterbox.filter fun c => c.1 / 4096 == n).map fun c => (c.1 % 4096, c.2) }
  let s := { s with frames := s.frames ++ [f] }
  match s.hdrOf (.slot n) with
  | some h => match hdrRefused (.slot n) h with
    | some o => s.afterServe (.slot n) (some (s.refuseFrame (.slot n) h cBAD_FRAME o))
    | none => s
  | none => s
/-- R277, R8: the bytes of a taken frame whose slot is written again: each byte written is the new one or the old one. Free: log entry 36. -/
def Frame.mix (f : Frame) (fresh off : Nat) (bs : List Byte) : Cells :=
  (List.range bs.length).foldl (fun (l : Cells) k =>
    if (off + k) / 4096 = f.slot ∧ (Config.freeByte fresh k).getLsbD 0 = true then sset 0 l ((off + k) % 4096) (bs.getD k 0) else l) f.bytes
/-- LETTERBOX_WRITE (R168, R277): the host's writes to its own memory that completed before, and a posted write to BAR0. -/
def execLetterboxWrite (off : Nat) (bytes : List Byte) (hostWrites : List (Nat × Byte)) (s : State) : Host.Outcome State Fault Refusal :=
  .next (
    if 65536 < off + bytes.length then s
    else
      let s := hostWrites.foldl (fun s w => if w.1 < hostBase then s.wrByte (hostBase + w.1) w.2 else s) s
      let cells := (List.range bytes.length).map fun k => (off + k, bytes.getD k 0)
      let touched : Nat → Bool := fun n => cells.any fun c => c.1 / 4096 == n
      let busy := s.frames.map Frame.slot
      let mark : Frame → Frame := fun f => if touched f.slot then { f with rewritten := true, bytes := f.mix s.fresh off bytes } else f
      let s := { s with
        letterbox := cells.foldl (fun l c => sset 0 l c.1 c.2) s.letterbox
        frames := s.frames.map mark
        fresh := s.fresh + 1 }
      (List.range 16).foldl (fun s n =>
        if !busy.contains n && cells.any (fun c => c.1 == 4096 * n + 7) then s.takeFrame n else s) s)
/-- LETTERBOX_READ (R277): every byte reads as 0xFF. -/
def execLetterboxRead (off len : Nat) (s : State) : Host.Outcome State Fault Refusal :=
  .next (if off + len ≤ 65536 then { s with lastRead := List.replicate len 0xFF } else s)

/-! Sessions (R278-R280). -/

/-- R279: whether a ring is one that a session may name. -/
def ringSpecOk (r : RingSpec) : Bool :=
  r.base % 4096 == 0 && decide (r.base < hostBase) && (List.range 11).any (fun k => r.entries == 2 ^ (6 + k)) && decide (r.vector < 64)
/-- Who sends: the PCIe endpoint, or a peer. -/
def callerSender : Caller → Option (Nat × Nat)
  | .slot _ => none
  | .peer a p _ _ => some (a, p)
/-- R278: the reply to a sender's latest SESSION_OPEN, with its tag. -/
def State.setOpen (s : State) (c : Caller) (tag : DWord) (r : Reply) : State :=
  ({ s with opens := (s.opens.filter fun (x : Option (Nat × Nat) × DWord × Reply) => x.1 != callerSender c) ++ [(callerSender c, tag, r)] }).deliver r
/-- R278-R280: how a SESSION_OPEN is served. -/
def State.openFrame (s : State) (c : Caller) (h : FrameHdr) (reply event : RingSpec) (space : Nat) (cls : BitVec 2) : Option State :=
  match hdrRefused c h with
  | some o => some (s.refuseFrame c h cBAD_FRAME o)
  | none =>
    let r : Reply := { session := 0, caller := some c, tag := h.tag, status := 0, result := [] }
    if h.code.toNat ≠ 1 ∨ s.fwWaits = true then none
    else if s.mixRefused c h then some (({ s with fresh := s.fresh + 1 } : State).refuseFrame c h cBAD_FRAME s.freeOffset)
    else if h.session ≠ 0 then some (s.refuseFrame c h cBAD_FRAME 4)
    else if h.seq ≠ 0 then some (s.refuseFrame c h cBAD_FRAME 0x10)
    else match s.opens.find? fun x => x.1 == callerSender c && x.2.1 == h.tag with
      | some x => some (s.deliver { x.2.2 with caller := some c })
      | none =>
        if (callerSender c).isNone && !(ringSpecOk reply && ringSpecOk event) then
          some (({ s with fresh := s.fresh + 1 } : State).setOpen c h.tag { r with status := status cBAD_FRAME s.freeOffset })
        else
          let n := s.nextSession
          let x : Session :=
            { rings := if (callerSender c).isNone then some ({ spec := reply }, { spec := event }) else none
              peer := callerSender c, space := space, cls := cls.toNat }
          let s := { s with
            sessions := tset s.sessions n x, nextSession := n + 1
            spaces := if (tget s.spaces space).isSome then s.spaces else tset s.spaces space [] }
          some (s.setOpen c h.tag { r with session := n, result := leBytes 4 n })
/-- SESSION_OPEN (R278-R280). -/
def execSessionOpen (c : Caller) (reply event : RingSpec) (space : Nat) (cls : BitVec 2) (s : State) : Host.Outcome State Fault Refusal :=
  .next (match s.hdrOf c with
    | none => s
    | some h => if s.wasServed c then s else s.afterServe c (s.openFrame c h reply event space cls))
/-- SESSION_CLOSE (R278, R280, R287): the reply comes once the session's launches have retired. A second one waits for that. -/
def execSessionClose (c : Caller) (s : State) : Host.Outcome State Fault Refusal :=
  .next (s.serve c 0x02 fun s x r =>
    if x.closing.isSome then none
    else some (({ s with sessions := match tget s.sessions r.session with
        | some y => tset s.sessions r.session { y with closing := some r }
        | none => s.sessions }).closeIfDone r.session))
/-- LAUNCH_CALL (R94, R97, R280, R387). -/
def execLaunchCall (c : Caller) (s : State) : Host.Outcome State Fault Refusal :=
  .next (s.serve c 0x03 fun t _ r =>
    let bs := (s.payloadOf c).take 256
    if ((s.hdrOf c).map fun h => h.len.toNat).getD 0 < 256 ∨ bs.length < 256 then t.reply r (status cBAD_FRAME 2) []
    else
      let x := t.accept r.session bs none 0 none r.tag
      x.1.reply r x.2 [])
/-- SET_SLICE (R107, R280): 100 µs to 1 s at the nominal clock. -/
def execSetSlice (c : Caller) (clocks : Nat) (s : State) : Host.Outcome State Fault Refusal :=
  .next (s.serve c 0x08 fun s _ r =>
    if clocks < 200000 ∨ 2000000000 < clocks then s.badCall r
    else match tget s.sessions r.session with
      | some x => { s with sessions := tset s.sessions r.session { x with slice := clocks } }.reply r (status cOK 0) []
      | none => none)

/-! Copies of the host, and frames to peers (R235, R280, R283). -/

/-- R235: the fault record of a copy that stops, to its session's event ring, with no launch's tag (R279). -/
def State.copyStopRecord (s : State) (session code off va : Nat) : State :=
  let r : FaultRecord := { type := 0x21, status := code, hearth := 0xFF, addr := BitVec.ofNat 64 va, detail := BitVec.ofNat 128 (off % 2 ^ 32) }
  ({ s with records := s.records ++ [(session, r)] }).postEvent session 0 ((List.range 48).map (fun _ => 0) ++ r.toBytes)
/-- R235, R280: the status of a copy and the result that carries its stop offset. -/
def copyStatus (bytes : Nat) (stop : Option (Nat × Nat × Nat)) : Word × List Byte :=
  match stop with
  | some (code, off, _) => (status code (sat24 (off / 256)), leBytes 8 off)
  | none => (status cOK 0, leBytes 8 bytes)
/-- R235, R280: a MEMCPY ends: its fault record, if it stops, and its reply. -/
def State.endCopy (s : State) (k : HostCopy) (stop : Option (Nat × Nat × Nat)) : State :=
  let s := ({ s with copies := s.copies.filter fun x => x.id != k.id } : State).releaseAll k.id
  let s := match stop with | some (code, off, va) => s.copyStopRecord k.reply.session code off va | none => s
  let st := copyStatus k.bytes stop
  s.answer { k.reply with status := st.1, result := st.2 }
/-- The address of an end of a copy. -/
def endAddr : CopyEnd → Nat
  | .device va => va
  | .host bus => bus
  | .remote _ _ _ va => va

/-- Whether a frame sent awaits a reply. -/
def PeerFrame.awaits (f : PeerFrame) : Bool := f.header.head? == some 0x40
/-- FRAME_RESEND (R283): a frame whose reply has not come is sent again. -/
def execFrameResend (n : Nat) (s : State) : Host.Outcome State Fault Refusal :=
  .next (
    let again : PeerFrame → PeerFrame := fun f => if f.id = n ∧ f.awaits = true then { f with resent := f.resent + 1 } else f
    { s with peerOut := s.peerOut.map again })
/-- PEER_REPLY_FRAME (R235, R283): a frame has drawn its reply; the copy whose bytes were in it goes on, or stops where the peer could not
write them. -/
def execPeerReplyFrame (n : Nat) (st : Word) (s : State) : Host.Outcome State Fault Refusal :=
  .next (
    if !(s.peerOut.any fun f => f.id == n && f.awaits) then s
    else
      let t := { s with peerOut := s.peerOut.filter fun f => f.id != n }
      match s.copies.find? fun k => k.frame.map Prod.fst == some n with
      | none => t
      | some k =>
        let code := (st.extractLsb' 0 8).toNat
        if code = cOK then
          let k := { k with done := k.done + (k.frame.map Prod.snd).getD 0, frame := none }
          { t with copies := t.copies.map fun x => if x.id = k.id then k else x }
        else t.endCopy k (some (code, k.done, endAddr k.dst + k.done)))

end Sys2Proof.Machine
end

