-- ==== Sys2Proof/Machine/Calls.lean ====
section
/-! DEFINITION. Calls on address spaces and memory: MAP, UNMAP, MIGRATE, MEMCPY and DATA frames (06 R145, R147-R149; 14 R234, R235; 18
R280, R281, R283, R386). -/

namespace Sys2Proof.Machine

/-! Pages. -/

/-- R145: the page sizes. -/
def sizeOk (n : Nat) : Bool := n == 4096 || n == 65536 || n == 2097152 || n == 1073741824
/-- Whether two runs of numbers meet. -/
def runsCross (a n b m : Nat) : Bool := decide (a < b + m ∧ b < a + n)
/-- The pages of an address space. -/
def State.pages (s : State) (space : Nat) : List Page := (tget s.spaces space).getD []
/-- R386: whether a call's range of pages is one that it may name. -/
def rangeOk (va size count : Nat) : Bool := sizeOk size && va % size == 0 && decide (va + size * count ≤ 2 ^ 56)
/-- R148, R272: device memory written with zeros: what any core or L2 holds of it is gone before an access through the new mapping. -/
def State.zeroRange (s : State) (pa n : Nat) : State :=
  let s := s.recallWhere fun l => decide (pa ≤ 128 * l ∧ 128 * l < pa + n)
  { s with mem := s.mem.filter fun c => !decide (pa ≤ c.1 ∧ c.1 < pa + n)
           badLines := s.badLines.filter fun l => !decide (pa ≤ 128 * l ∧ 128 * l < pa + n) }
/-- Whether a run of physical memory is mapped by a page of any address space. -/
def State.mapped (s : State) (pa n : Nat) : Bool := s.spaces.any fun x => x.2.any fun p => runsCross pa n p.pa p.size
/-- MAP (R148, R280, R386): `pa` is a device physical base, or 2^51 and a host bus base. A page of device memory that nothing maps is
newly allocated. -/
def execMap (c : Caller) (va pa size count : Nat) (perms : Perms) (s : State) : Host.Outcome State Fault Refusal :=
  .next (s.serve c 0x04 fun s x r =>
    if !rangeOk va size count || (s.pages x.space).any (fun p => runsCross va (size * count) p.va p.size) then s.badCall r
    else
      let new := (List.range count).map fun k => ({ va := va + k * size, size := size, pa := pa + k * size, perms := perms } : Page)
      let fresh := new.filter fun p => !isHost p.pa && !s.mapped p.pa p.size
      let s := fresh.foldl (fun s p => s.zeroRange p.pa p.size) s
      { s with spaces := tset s.spaces x.space (s.pages x.space ++ new) }.reply r (status cOK 0) [])
/-- R386: the pages that an UNMAP leaves: a larger page that it cuts is mapped again as pages of the call's size. -/
def unmapPages (va size n : Nat) (l : List Page) : List Page :=
  l.flatMap fun p =>
    if !runsCross va n p.va p.size then [p]
    else if p.size ≤ size then []
    else (List.range (p.size / size)).filterMap fun k =>
      let a := p.va + k * size
      if va ≤ a ∧ a < va + n then none else some { p with va := a, size := size, pa := p.pa + k * size }
/-- UNMAP (R147, R149, R280, R386). -/
def execUnmap (c : Caller) (va size count : Nat) (s : State) : Host.Outcome State Fault Refusal :=
  .next (s.serve c 0x05 fun s x r =>
    if !rangeOk va size count then s.badCall r
    else
      let n := size * count
      (s.shootdown x.space va n fun s =>
        { s.dropCut x.space va n with spaces := tset s.spaces x.space (unmapPages va size n (s.pages x.space)) }).reply r (status cOK 0) [])
/-- R149: the contents of a page moved to another place of device memory, with the state of its uncorrectable lines. -/
def State.movePage (s : State) (old new n : Nat) : State :=
  let cells := s.mem.filter fun c => decide (old ≤ c.1 ∧ c.1 < old + n)
  let bad := s.badLines.filter fun l => decide (old ≤ 128 * l ∧ 128 * l < old + n)
  let s := s.zeroRange new n
  { s with mem := cells.foldl (fun m c => sset memDefault m (c.1 - old + new) c.2) s.mem
           badLines := s.badLines ++ bad.map fun l => (128 * l - old + new) / 128 }
/-- MIGRATE (R147, R149, R280): `newPa` is the free page of the new home that the firmware takes. -/
def execMigrate (c : Caller) (va home newPa : Nat) (s : State) : Host.Outcome State Fault Refusal :=
  .next (s.serve c 0x06 fun s x r =>
    match (s.pages x.space).find? fun p => p.va == va with
    | none => s.badCall r
    | some p =>
      if isHost p.pa || 4 ≤ home then s.badCall r
      else if !s.up home || !((homeOf p.pa).map s.up).getD false then s.reply r (status cOFFLINE 0) []
      else if homeOf newPa ≠ some home ∨ homeOf (newPa + p.size - 1) ≠ some home ∨ newPa % p.size ≠ 0 ∨ s.mapped newPa p.size = true then none
      else
        let move : Page → Page := fun q => if q.va = va then { q with pa := newPa } else q
        (s.shootdown x.space va p.size fun s =>
          { s.movePage p.pa newPa p.size with spaces := tset s.spaces x.space ((s.pages x.space).map move) }).reply r (status cOK 0) [])

/-! Copies. -/

/-- R168: bytes written to host memory by a posted write, and what D0 holds of their lines with them. -/
def State.hostWrite (s : State) (bus : Nat) (bs : List Byte) : State :=
  let lines := runLines (hostBase + bus) bs.length
  (s.devWriteBytes (hostBase + bus) bs).flushHost fun l => !lines.contains l
/-- An end of a copy at an offset (R235, R280), for an engine that the host has refused some pages. -/
def State.copyEnd (s : State) (die space : Nat) (denied : List Nat) (e : CopyEnd) (off : Nat) (need : Perms → Bool) : PieceEnd :=
  match e with
  | .device va => match s.look die space (va + off) need with
    | .ok pa => .at pa
    | .fail => .fail
    | .wait => if denied.contains ((va + off) / 4096) then .fail else .wait
  | .host bus => if bus + off < hostBase then .at (hostBase + bus + off) else .fail
  | .remote _ _ _ _ => .share 0
/-- R235: why a piece of a copy fails, of whose source `h` bytes have been read: the code and the failing address. -/
def State.copyFault (s : State) (a b : PieceEnd) (av bv h n : Nat) : Option (Nat × Nat) :=
  let x := a.past h
  match x.line (n - h) fun l => s.lineUp l && s.badLines.contains l with
  | some l => some (cDATA, x.vaOf (av + h) l)
  | none => match x.line (n - h) (fun l => !s.lineUp l), b.line n (fun l => !s.lineUp l) with
    | some l, _ => some (cOFFLINE, x.vaOf (av + h) l)
    | none, some l => some (cOFFLINE, b.vaOf bv l)
    | none, none => if a = .fail then some (cCPY_XLATE, av) else if b = .fail then some (cCPY_XLATE, bv) else none
/-- R234: whether a byte that a copy writes is one that it also reads. -/
def State.copyClash (s : State) (space : Nat) (src : CopyEnd) (bytes v pa : Nat) : Bool :=
  match src with
  | .device va => s.inSpan space va bytes v pa
  | .host bus => decide (hostBase + bus ≤ pa ∧ pa < hostBase + bus + bytes)
  | .remote _ _ _ _ => false
/-- How the bytes of a DATA frame land: a stop with its code, stop offset and failing address, or none; or a wait for the host. -/
inductive CopyRes where
  | done (s : State) (stop : Option (Nat × Nat × Nat))
  | wait
/-- A run of physical memory written by an engine for a call: every copy of its lines is recalled (R136). -/
def State.callWrite (s : State) (pa : Nat) (bs : List Byte) : State :=
  ((runLines pa bs.length).foldl State.engineRecall s).devWriteBytes pa bs
/-- R283: bytes of a remote copy leave in a DATA frame; its number. -/
def State.sendData (s : State) (addr port session : Nat) (tag : DWord) (va : Nat) (bs : List Byte) : State × Nat :=
  let seq := ((tget s.peerSeq (addr, port, session)).getD 0) + 1
  let h : FrameHdr := { code := 0x40, version := 1, len := BitVec.ofNat 16 bs.length, session := BitVec.ofNat 32 session, tag := tag
                        seq := seq, resv := 0 }
  let f : PeerFrame := { id := s.nextOp, addr := addr, port := port, udp := s.udpPort, header := hdrBytes h, bytes := bs, session := session, va := va }
  ({ s with peerOut := s.peerOut ++ [f], nextOp := s.nextOp + 1, peerSeq := tset s.peerSeq (addr, port, session) seq }, s.nextOp)
/-- A MEMCPY in service changed. -/
def State.setCopy (s : State) (k : HostCopy) : State := { s with copies := s.copies.map fun x => if x.id = k.id then k else x }
/-- R234, R283: the length of the next piece of a copy; one that goes to a peer fits a DATA frame. -/
def HostCopy.len (k : HostCopy) : Nat :=
  min (pieceLen .mm (endAddr k.src) (endAddr k.dst) k.bytes k.done) (match k.dst with | .remote _ _ _ _ => 4032 | _ => 4096)
/-- R234, R235, R280, R283: the next piece of a MEMCPY is copied or sent to a peer, stops it, or waits for the host; or the copy ends. -/
def State.copyStep (s : State) (k : HostCopy) : State :=
  if k.frame.isSome then s
  else if k.bytes ≤ k.done then s.endCopy k none
  else
    let av := endAddr k.src + k.done
    let bv := endAddr k.dst + k.done
    let a := s.copyEnd k.die k.space k.denied k.src k.done needR
    let b := s.copyEnd k.die k.space k.denied k.dst k.done needAny
    let h := min k.len k.line.length
    let more := k.bytes - k.done - k.len
    match s.copyFault a b av bv h k.len with
    | some f => s.endCopy k (some (f.1, k.done, f.2))
    | none => match a, b, k.dst with
      | .at pa, .share _, .remote addr port session _ =>
        let src := s.readPiece k.line pa k.len more
        let x := s.sendData addr port session k.reply.tag bv (src.take k.len)
        x.1.setCopy { k with frame := some (x.2, k.len), line := src.drop k.len }
      | .at pa, .at pb, d =>
        let src := s.readPiece k.line pa k.len more
        let bs := (List.range k.len).map fun j =>
          if s.copyClash k.space k.src k.bytes (bv + j) (pb + j) then Config.freeByte s.fresh j else src.getD j 0
        let t := ((runLines pb k.len).foldl (fun (s : State) l => if s.owned.contains (l, k.id) then s else s.own k.id l)
          ({ s with fresh := s.fresh + 1 } : State)).devWriteBytes pb bs
        (match d with
          | .host _ => t.flushHost fun l => !(runLines pb k.len).contains l
          | _ => t).setCopy { k with done := k.done + k.len, line := src.drop k.len }
      | _, _, _ => s
/-- MEMCPY (R142, R167, R234, R235, R280, R283): the copy engine of D0 or of the lowest-numbered online die takes the copy, and the
destination lines that translate then; the reply comes at its end. -/
def execMemcpy (c : Caller) (src dst : CopyEnd) (bytes : Nat) (s : State) : Host.Outcome State Fault Refusal :=
  .next (s.serve c 0x07 fun s x r =>
    match src, dst with
    | .remote _ _ _ _, _ => s.badCall r
    | .host _, .remote _ _ _ _ => s.badCall r
    | _, _ =>
      let k : HostCopy := { id := s.nextOp, reply := r, die := s.firstUp, space := x.space, src := src, dst := dst, bytes := bytes }
      some ((s.copyLines k).foldl (fun (t : State) l => t.own k.id l) { s with copies := s.copies ++ [k], nextOp := s.nextOp + 1 }))
/-- TRANSACTION_BYTES_LAND (R234): the next piece of a copy, of a slice of a CPY or of a MEMCPY. -/
def execTransactionBytesLand (op : Nat) (s : State) : Host.Outcome State Fault Refusal :=
  match s.copies.find? fun k => k.id == op with
  | some k => .next (s.copyStep k)
  | none => .next (s.landSlice op)

/-- R283: the bytes of a DATA frame written at the device level, page by page: a stop with its code and offset, or none. -/
def State.landData (s : State) (die space va : Nat) (bs : List Byte) : Nat → Nat → CopyRes
  | 0, _ => .done s none
  | n + 1, at_ =>
    if bs.length ≤ at_ then .done s none
    else
      let len := min (bs.length - at_) (4096 - (va + at_) % 4096)
      let b := s.copyEnd die space [] (.device va) at_ needAny
      match s.copyFault (.share 0) b 0 (va + at_) 0 len, b with
      | some f, _ => .done s (some (f.1, at_, f.2))
      | none, .at pa =>
        (s.callWrite pa ((bs.drop at_).take len)).landData die space va bs n (at_ + len)
      | none, _ => .wait
/-- DATA_FRAME (R278, R283). -/
def execDataFrame (addr port : Nat) (hdr : FrameHdr) (va : Nat) (bytes : List Byte) (s : State) : Host.Outcome State Fault Refusal :=
  .next (s.serve (.peer addr port hdr bytes) 0x40 fun s x r =>
    if 4032 < bytes.length then s.badCall r
    else match s.landData s.firstUp x.space va bytes (bytes.length / 4096 + 2) 0 with
      | .wait => none
      | .done s stop => let st := copyStatus bytes.length stop; s.reply r st.1 st.2)

end Sys2Proof.Machine
end

