-- ==== Sys2Proof/Machine/Manage.lean ====
section
/-! DEFINITION. Debugging, halted waves and context images by host call (17 R260-R264, R268, R269; 18 R280). -/

namespace Sys2Proof.Machine

/-! Debugger halts (R262, R263). -/

/-- The waves that a scope names. -/
def State.scopeWaves (s : State) : HaltScope → List WaveId
  | .grid g => (s.waves.map Prod.fst).filter fun w => w.grid == g
  | .block g b => s.wavesOf g b
  | .wave w => if (s.wave w).isSome then [w] else []
/-- R262: one wave enters DEBUG_HALTED. -/
def State.debugStop (s : State) (id : WaveId) : State :=
  match s.wave id with
  | some w =>
    if w.dbg then s
    else
      let s := if w.resident then s.pause id else s
      s.modWave id fun w => { s.undoEntry id w with dbg := true, ctxPark := w.ctxPark.map fun t => s.clkOf id - t }
  | none => s
/-- DEBUG_HALT (R262, R263, R280). -/
def execDebugHalt (c : Caller) (scope : HaltScope) (s : State) : Host.Outcome State Fault Refusal :=
  .next (s.serve c 0x10 fun s _ r =>
    let ws := s.scopeWaves scope
    if ws.isEmpty then s.badCall r else (ws.foldl State.debugStop s).reply r (status cOK 0) [])
/-- R262: one wave leaves DEBUG_HALTED. -/
def State.debugGo (s : State) (id : WaveId) (w : Wave) (trap : Bool) : State :=
  let s := s.setWave id { w with dbg := false, ctxPark := w.ctxPark.map fun t => s.clkOf id - t }
  let s := if w.resident then
      (match s.hearthOf id w with | some k => ((s.requeue k id).untile k id).trimSpill w.core | none => s).restart id
    else s
  let halted := match w.mode with | .halted .. => true | _ => false
  if !trap || halted then s
  else
    if w.resident || w.inHandler then s.takeTrap id (w.debugTrap id)
    else s.modWave id fun w => { w with dbgTrap := true }
/-- DEBUG_RESUME (R262, R280). -/
def execDebugResume (c : Caller) (w : WaveId) (trap : Bool) (s : State) : Host.Outcome State Fault Refusal :=
  .next (s.serve c 0x11 fun s _ r =>
    match s.wave w with
    | some x => if x.dbg then (s.debugGo w x trap).reply r (status cOK 0) [] else s.badCall r
    | none => s.badCall r)

/-! Context images (R268, R269). -/

/-- Whether a wave is halted, by HALT or by a debugger. -/
def Wave.stopped (w : Wave) : Bool := w.dbg || (match w.mode with | .halted .. => true | _ => false)
/-- A byte of an address space's memory, by the tables alone. -/
def State.imageByte (s : State) (space va : Nat) : Byte :=
  match s.walk space va with
  | some (pa, _) => s.devRd pa
  | none => 0
/-- R113, R268: the register word at an image offset, if a line of the cache holds it or it has been written while its line is away. -/
def Wave.heldWord (w : Wave) (off : Nat) : Option Word :=
  let at_ : Option (RReg × Nat × Nat × Word) :=
    if 0x1000 ≤ off ∧ off < 0x1200 then
      let n := (off - 0x1000) / 4
      some (.s n, 0, n / 32, w.sreg n)
    else if vregOff w.width 0 0 ≤ off then
      let i := (off - vregOff w.width 0 0) / 4
      some (.v (i / w.width), i % w.width, 4 + i / 32, w.vreg (i / w.width) (i % w.width))
    else none
  at_.bind fun r => if w.cached.contains r.2.2.1 || w.newer.contains (r.1, r.2.1) then some r.2.2.2 else none
/-- R7, R268: a byte of a wave image: its reserved bytes read as zero, its page list stands in it, and what the
register cache holds of its registers. -/
def State.waveByte (s : State) (id : WaveId) (w : Wave) (off : Nat) : Byte :=
  if 0x0F90 ≤ off ∧ off < 0x1000 then 0
  else if 0x1200 ≤ off ∧ off < 0x2000 then
    (w.pageList (((s.grid id.grid).map fun x => x.rec_.ctxBase).getD 0)).getD (off - 0x1200) 0
  else match w.heldWord off with
    | some x => (leBytes 4 x.toNat).getD (off % 4) 0
    | none => s.imageByte (s.spaceOf id.grid) (s.imageVa id w off)
/-- R7, R269: a byte of a block image: its reserved bytes read as zero, and its page list and pantry shares stand in it. -/
def State.blockByte (s : State) (g : Nat) (k : Block) (off : Nat) : Byte :=
  let n := ((s.grid g).map fun x => x.rec_.shareBytes).getD 0
  if 0x240 ≤ off ∧ off < 0x400 then 0
  else if 0x400 ≤ off ∧ off < 0x1000 then (k.pageList (((s.grid g).map fun x => x.rec_.ctxBase).getD 0)).getD (off - 0x400) 0
  else if 0x1000 ≤ off ∧ off < 0x1000 + n * k.ncores then sget 0 ((k.shares.getD ((off - 0x1000) / n) {}).bytes) ((off - 0x1000) % n)
  else s.imageByte (s.spaceOf g) (k.image + off)
/-- CONTEXT_READ (R262, R280): part of the image of a halted wave, or of a block whose waves are all halted. -/
def execContextRead (c : Caller) (w : WaveId) (block : Bool) (off bytes buffer : Nat) (s : State) : Host.Outcome State Fault Refusal :=
  .next (s.serve c 0x12 fun s _ r =>
    if hostBase < buffer + bytes then s.badCall r
    else if block then
      match s.block w.grid w.block with
      | some k =>
        let size := ((s.grid w.grid).map fun g => g.rec_.blockBytes).getD 0
        if (s.wavesOf w.grid w.block).all (fun id => ((s.wave id).map Wave.stopped).getD true) && decide (off + bytes ≤ size) then
          (s.hostWrite buffer ((List.range bytes).map fun i => s.blockByte w.grid k (off + i))).reply r (status cOK 0) []
        else s.badCall r
      | none => s.badCall r
    else match s.wave w with
      | some x =>
        if x.stopped && decide (off + bytes ≤ waveImageBytes x.width x.valloc) then
          let s := if x.resident then s.saveImage w else s
          (s.hostWrite buffer ((List.range bytes).map fun i => s.waveByte w x (off + i))).reply r (status cOK 0) []
        else s.badCall r
      | none => s.badCall r)

/-! Halted waves (R260, R261). -/

/-- WAVE_RESUME (R261, R280). -/
def execWaveResume (c : Caller) (w : WaveId) (pc : DWord) (mode : Bool) (s : State) : Host.Outcome State Fault Refusal :=
  .next (s.serve c 0x13 fun s _ r =>
    match s.wave w with
    | some x => match x.mode with
      | .halted hand k second =>
        if !pcOk pc || (mode && !hand) then s.badCall r
        else
          let t :=
            if hand then
              let s := s.setWave w { x with mode := .handler }
              if mode then
                s.modWave w fun x => { x with hand := x.hand.map fun h =>
                  { h with path := { h.path with pc := pc, readyAt := max h.path.readyAt (s.clkOf w + 1) } } }
              else s.endHandler w pc
            else
              (s.setWave w ({ x with mode := .running }.modPath k second false fun p =>
                { p with pc := pc, readyAt := max p.readyAt (s.clkOf w + 1) })).takePending w
          t.reply r (status cOK 0) []
      | _ => s.badCall r
    | none => s.badCall r)
/-- R40: every lane of a wave ends. -/
def Wave.endLanes (w : Wave) : Wave :=
  { w with mode := .running, hand := none, pending := none, dbgTrap := false, due := [], splits := [{}, {}, {}, {}], joins := [{}, {}, {}, {}], wins := []
           shared := [], hold := none, ctxPark := none, dbg := false }
/-- WAVE_END (R40, R260, R280): the wave's lanes end, and it ends once nothing of it is in flight. -/
def execWaveEnd (c : Caller) (w : WaveId) (s : State) : Host.Outcome State Fault Refusal :=
  .next (s.serve c 0x14 fun s _ r =>
    match s.wave w with
    | some x => match x.mode with
      | .halted .. =>
        let s := s.setWave w x.endLanes
        let s := if s.mayEnd w x.endLanes then s.endWave w else s
        s.reply r (status cOK 0) []
      | _ => s.badCall r
    | none => s.badCall r)

end Sys2Proof.Machine
end

