-- ==== Sys2Proof/Machine/Admin.lean ====
section
/-! DEFINITION. The management calls: cores, channels and lanes, warm reset, error thresholds, power, firmware, attestation, and bring-up
(01 R10, R12, R18; 17 R273-R276; 18 R280, R284-R287). -/

namespace Sys2Proof.Machine

/-- R265, R275: a DIE_STATE record. -/
def State.dieState (s : State) (die : Nat) : State := s.sendRecord none { type := 0x2B, die := die, hearth := 0xFF }
/-- R107, R108, R116: the blocks on some cores are pre-empted, and with a grid barrier their whole grids. -/
def State.evacuate (s : State) (on : CoreId → Bool) : State :=
  let here := s.blocks.filter fun b => (List.range b.2.ncores).any fun k => on ⟨b.2.die, b.2.base + k⟩
  (distinct (here.map fun b => (b.1.1, s.groupOf b.1.1 b.1.2))).foldl (fun s g => s.preempt g.1 g.2) s

/-! Cores, channels and lanes (R274). -/

/-- Whether a core is one of the 48 of a die (R11). -/
def coreOk (c : CoreId) : Bool := decide (c.die < 4 ∧ c.core < 48)
/-- CORE_RETIRE (R204, R274, R280): the events that the core has met in this clock are counted first. -/
def execCoreRetire (c : Caller) (core : CoreId) (s : State) : Host.Outcome State Fault Refusal :=
  .next (s.serve c 0x20 fun s _ r =>
    if !coreOk core || (s.die core.die).retired.contains core.core then s.badCall r
    else
      let s := ((s.evacuate fun k => k == core).endClock core).modDie core.die fun d => { d with retired := d.retired ++ [core.core] }
      (({ s.emptyCaches fun k => k == core with cores := tdel s.cores core } : State).dieState core.die).reply r (status cOK 0) [])
/-- CORE_SPARE (R12, R274, R280). -/
def execCoreSpare (c : Caller) (core : CoreId) (s : State) : Host.Outcome State Fault Refusal :=
  .next (s.serve c 0x21 fun s _ r =>
    if !coreOk core || !(s.die core.die).retired.contains core.core then s.badCall r
    else if (s.die core.die).spares = 0 then s.reply r (status cNO_RESOURCE 0) []
    else
      ((s.modDie core.die fun d =>
        { d with retired := d.retired.filter fun k => k != core.core, spares := d.spares - 1 }).dieState core.die).reply r (status cOK 0) [])
/-- HBM_SPARE (R18, R274, R280). -/
def execHbmSpare (c : Caller) (die stack channel : Nat) (s : State) : Host.Outcome State Fault Refusal :=
  .next (s.serve c 0x22 fun s _ r =>
    if 4 ≤ die ∨ 3 ≤ stack then s.badCall r
    else
      ((s.modDie die fun d => { d with hbmSpared := addNew d.hbmSpared (stack, channel) }).dieState die).reply r (status cOK 0) [])
/-- LANE_REPAIR (R10, R274, R280). How many spare lanes a link has, and whether the repair of a lane that has not failed is refused, R10 leaves
open: the model lets every repair succeed. It also leaves open how a link's lanes are numbered from its two ends: the model keys a lane by the
end that names it, so a repair called for from the other end leaves this end's lane among the failed ones (DESIGN CHOICE, log entry 41). -/
def execLaneRepair (c : Caller) (die other lane : Nat) (s : State) : Host.Outcome State Fault Refusal :=
  .next (s.serve c 0x23 fun s _ r =>
    if 4 ≤ die ∨ 4 ≤ other ∨ die = other then s.badCall r
    else
      ((s.modDie die fun d =>
        { d with failedLanes := d.failedLanes.filter (fun x => x != (other, lane))
                 repairedLanes := addNew d.repairedLanes (other, lane) }).dieState die).reply r (status cOK 0) [])

/-! Warm reset (R6, R275, R276). -/

/-- R224, R246: a hearth of a die that goes down: an MXST under way ends, what its waves own is saved, and what is left fails. -/
def State.quenchHearth (s : State) (die h : Nat) : State :=
  let s := follow (execMxstCompletion die h (2 ^ 1024 - 1) s) s
  let s := follow (execHearthQuiescent die h 0 s) s
  let s := (s.hearth (die, h)).queue.foldl (fun s m => match s.op m.id with
    | some o => s.mxDone (die, h) m o cOFFLINE (7, 0, 0, 0)
    | none => s) s
  { s with hearths := tdel s.hearths (die, h) }
/-- R246: an operation of a die's engines that is abandoned. Of a BINA the rule says nothing more: the model writes DIE_OFFLINE with the lanes
appended, as for a BINR (DESIGN CHOICE, log entry 71). A slice that stops here has no line that failed: its record holds the address of the
next byte of its source, or of its destination where the source is a pantry (DESIGN CHOICE, log entry 71). -/
def State.abandon (s : State) (die : Nat) (o : Op) : State :=
  if o.core.die ≠ die ∨ o.done = true then s
  else match o.kind with
    | .cpy n dir src dst bytes _ _ done none =>
      let issued := (((s.block o.wave.grid o.wave.block).bind fun b => b.copy n).map CopyOp.issued).getD false
      if issued && decide (done < bytes) then s.stopSlice o cOFFLINE done ((if dir = .pm then dst else src) + done) else s
    | .binr _ _ _ st replay => s.endBin o st (status cOFFLINE (match replay with | some (_, recs, _) => sat24 recs.length | none => 0))
    | .bina _ _ _ _ st walk => s.endBin o st (status cOFFLINE (match walk with | some k => sat24 k.recs.length | none => 0))
    | _ => s
/-- R158: an ACQUIRE of device scope that awaits the reply of another die, which goes down. -/
def Op.markOff (die : Nat) (o : Op) : Op :=
  match o.kind with
  | .acquire level st (some m) false off =>
    if 3 ≤ level ∧ o.core.die ≠ die then { o with kind := .acquire level st (some m) false (off ||| BitVec.twoPow 4 die) } else o
  | _ => o
/-- R6, R275: the registers of a die at their reset values; what R272 and R274 leave is kept, and the page requests that the endpoint has
sent for it stay outstanding until the host answers (R282). -/
def Die.warm (d : Die) (r : Reply) : Die :=
  { d with resetting := true, resetReply := some r, toPower := none, ce := [], boxes := [[], [], [], []], base := d.clk, ats := [], dropped := [] }
/-- R10, R265, R275: the three links to a die retrain. What becomes of their failed lanes, and which lane the record of a whole link names, is
open: the model takes them out of the failed lanes, as for a LINK event, and names lane 0 (DESIGN CHOICE, log entry 41). -/
def State.retrainLinks (s : State) (die : Nat) : State :=
  let s := { s with dies := s.dies.zipIdx.map fun (d, n) =>
    { d with failedLanes := d.failedLanes.filter fun x => n != die && x.1 != die } }
  ((List.range 4).filter fun o => o != die).foldl (fun s o =>
    s.sendRecord none { type := 0x27, die := die, hearth := 0xFF, detail := BitVec.ofNat 128 (o + 131072) }) s
/-- R204, R275: steps 1 to 6, each with its record. The events that the die's cores have met in this clock are counted before their counters
go. -/
def State.resetDie (s : State) (die : Nat) (r : Reply) : State :=
  let s := (s.dieState die).evacuate fun k => k.die == die
  let s := (List.range 24).foldl (fun s h => s.quenchHearth die h) s
  let s := (s.ops.foldl (fun s o => s.abandon die o) s).emptyCaches fun c => c.die == die
  let s := ((s.copies.filter fun k => k.die == die).foldl (fun s k => s.endCopy k (some (cOFFLINE, k.done, endAddr k.src + k.done))) s).dieState die
  let s := if die = 0 then s.flushHost fun _ => false else s
  let s := ({ s with l2 := s.l2.filter fun x => x.1.1 != die } : State).dieState die
  let s := ({ s.modDie die (fun d => d.warm r) with priWait := s.priWait.filter fun x => x.1 != die } : State).recallWhere fun l => homeOf (128 * l) == some die
  let s := ({ s with ops := s.ops.map (Op.markOff die) } : State).dieState die
  let s := ((s.cores.map Prod.fst).filter fun k => k.die == die).foldl State.endClock s
  let s := ({ s with cores := s.cores.filter fun k => k.1.die != die } : State).dieState die
  (s.retrainLinks die).dieState die
/-- R287: whether a firmware image waits to start. -/
def State.fwPending (s : State) : Bool := s.dies.any fun d => d.staged.isSome
/-- DIE_RESET (R275, R276, R280, R287): its reply comes when the die is online again. -/
def execDieReset (c : Caller) (die : Nat) (s : State) : Host.Outcome State Fault Refusal :=
  .next (s.serve c 0x24 fun s _ r =>
    if 4 ≤ die then s.badCall r
    else if (s.dies.any Die.resetting) || s.fwPending then s.reply r (status cBUSY 0) []
    else if !(s.die die).online then s.reply r (status cOFFLINE 0) []
    else some (s.resetDie die r))
/-- DIE_ADMIT (R275, R280). -/
def execDieAdmit (c : Caller) (die : Nat) (s : State) : Host.Outcome State Fault Refusal :=
  .next (s.serve c 0x25 fun s _ r =>
    if 4 ≤ die ∨ (s.die die).resetting = false then s.badCall r
    else
      let first := (s.die die).resetReply
      let s := (s.modDie die fun d => { d with resetting := false, resetReply := none }).dieState die
      let s := match first with | some q => s.answer { q with status := status cOK 0 } | none => s
      s.reply r (status cOK 0) [])

/-! Thresholds and power (R273, R286). -/

/-- CE_SET (R203, R273, R280). -/
def execCeSet (c : Caller) (die counter : Nat) (threshold : BitVec 16) (window : Word) (s : State) : Host.Outcome State Fault Refusal :=
  .next (s.serve c 0x26 fun s _ r =>
    if 4 ≤ die ∨ ceCounterOk die counter = false then s.badCall r
    else
      let x : CeCounter := { threshold := threshold.toNat, window := window.toNat, started := s.clk die }
      (s.modDie die fun d => { d with ce := tset d.ce counter x }).reply r (status cOK 0) [])
/-- POWER (R280, R286, R287). -/
def execPower (c : Caller) (die : Nat) (st : Power) (s : State) : Host.Outcome State Fault Refusal :=
  .next (s.serve c 0x27 fun s _ r =>
    if 4 ≤ die then s.badCall r
    else if (s.die die).resetting then s.reply r (status cBUSY 0) []
    else if !(s.die die).online then s.reply r (status cOFFLINE 0) []
    else
      let s := s.modDie die fun d => { d with toPower := some st }
      (if st = .idle then s.evacuate fun k => k.die == die else s).reply r (status cOK 0) [])
/-- POWER_CHANGE_EFFECT (R286): the die's resident waves stand at instruction boundaries; for IDLE none is left. -/
def execPowerChangeEffect (die : Nat) (s : State) : Host.Outcome State Fault Refusal :=
  .next (match (s.die die).toPower with
    | some st =>
      if st = .idle && s.waves.any (fun w => w.2.resident && w.2.core.die == die) then s
      else s.modDie die fun d => { d with power := st, toPower := none }
    | none => s)

/-! Firmware and identity (R284, R285). -/

/-- AUTH_FAIL (R278). -/
def cAUTH_FAIL : Nat := 0x73
/-- VERSION (R278). -/
def cVERSION : Nat := 0x74
/-- FW_UPDATE (R284, R287): the image is read from host memory and checked for every die named. One that names a die whose staged image has
not started yet queues for that image. -/
def execFwUpdate (c : Caller) (dies : BitVec 4) (addr len : Nat) (s : State) : Host.Outcome State Fault Refusal :=
  .next (s.serve c 0x28 fun s _ r =>
    let ds := (List.range 4).filter fun d => dies.getLsbD d
    if ds.any fun d => (s.die d).staged.isSome then none
    else if hostBase < addr + len then s.badCall r
    else if s.dies.any Die.resetting then s.reply r (status cBUSY 0) []
    else if !(ds.all s.up) then s.reply r (status cOFFLINE 0) []
    else
      let img := s.devRdN (hostBase + addr) len
      if ds.any fun d => !Config.sm2Verify d img then s.reply r (status cAUTH_FAIL 0) []
      else if ds.any fun d => decide ((Config.imageVersion img).toNat < (s.die d).minimum.toNat) then s.reply r (status cVERSION 0) []
      else (ds.foldl (fun s d => s.modDie d fun k => { k with staged := some img }) s).reply r (status cOK 0) [])
/-- R284: whether a die's service quad has a call in service that has not drawn its reply. -/
def State.serving (s : State) (die : Nat) : Bool :=
  s.copies.any (fun k => k.die == die) || (decide (s.firstUp = die) && s.sessions.any fun x => x.2.closing.isSome)
/-- FW_IMAGE_SWITCH (R284): at the next call boundary, once the calls in service have finished on the old image. -/
def execFwImageSwitch (die : Nat) (s : State) : Host.Outcome State Fault Refusal :=
  .next (match (s.die die).staged with
    | some img => if s.serving die then s else s.modDie die fun d =>
      { d with staged := none, digest := Config.sm3 img, version := Config.imageVersion img
               minimum := match Config.imageMinimum img with
                 | some m => if d.minimum.toNat < m.toNat then m else d.minimum
                 | none => d.minimum }
    | none => s)
/-- The 32 bytes of a digest. -/
def digestBytes (x : BitVec 256) : List Byte := leBytes 32 x.toNat
/-- The retired cores of a die in ascending order. -/
def Die.retiredAsc (d : Die) : List Nat := sortBy (fun a b => decide (a ≤ b)) d.retired
/-- R285: the report of 256 bytes. How the bitmap of dies and cores is packed is not in the spec: log entry 8. -/
def State.report (s : State) (nonce : List Byte) : List Byte :=
  ((List.range 32).map fun k => nonce.getD k 0) ++ digestBytes Config.bootRomDigest ++
    ((List.range 4).flatMap fun d => if s.up d then digestBytes (s.die d).digest else List.replicate 32 0) ++
    ((List.range 4).flatMap fun d => leBytes 2 (s.die d).minimum.toNat) ++ leBytes 8 (Config.reportBitmap ((List.range 4).map s.up) (s.dies.map Die.retiredAsc) (s.dies.map Die.spares)).toNat ++
    List.replicate 48 0
/-- ATTEST (R168, R285). -/
def execAttest (c : Caller) (nonce : List Byte) (buffer : Nat) (s : State) : Host.Outcome State Fault Refusal :=
  .next (s.serve c 0x29 fun s _ r =>
    if buffer % 64 ≠ 0 ∨ hostBase < buffer + 320 then s.reply r (status cBAD_FRAME 0x40) []
    else
      let rep := s.report nonce
      let dig := Config.sm3 rep
      let s : State := { s with fresh := s.fresh + 1 }
      (s.hostWrite buffer (rep ++ leBytes 64 (Config.sm2Sign dig).toNat)).reply r (status cOK 0) (leBytes 4 320 ++ digestBytes dig))
/-- IDENTITY (R280, R285). -/
def execIdentity (c : Caller) (s : State) : Host.Outcome State Fault Refusal :=
  .next (s.serve c 0x2A fun s _ r => s.reply r (status cOK 0) Config.identityBytes)

/-- POWER_ON_RESET (R6, R284, R286): every die is verified, trained and tested, and reports; one that fails stays offline. The minimum versions
are fused in the dies and stay. -/
def execPowerOnReset (failed : BitVec 4) (s : State) : Host.Outcome State Fault Refusal :=
  .next (
    let old : Nat → BitVec 16 := fun d => (s.die d).minimum
    let s : State := { State.reset with inputs := s.inputs, auto := s.auto, fresh := s.fresh, mem := s.mem.filter fun c => isHost c.1 }
    (List.range 4).foldl (fun s d => (s.modDie d fun k => { k with online := !failed.getLsbD d, minimum := old d }).dieState d) s)

end Sys2Proof.Machine
end

