-- ==== Sys2Proof/Machine/Float.lean ====
section
/-! DEFINITION. The floating-point class (20 R308-R319; 11 R185-R194). -/

namespace Sys2Proof.Machine

/-- R192: whether a launch flushes the subnormals of a type. -/
def Record.ftz (r : Record) (t : Ty) : Bool :=
  match t with
  | .f32 => r.ftz32
  | .f16 => r.ftz16
  | _ => false

/-- R192, R309: an operand read as a type: flushed, then its sign inverted where the negation bit says so. -/
def Ctx.flt (c : Ctx) (o : Opnd) (t : Ty) (neg : Bool) (lane : Nat) : FVal :=
  ((tyFmt t).val ((tyFmt t).flushIn (c.grid.rec_.ftz t) (c.rd o t.regs lane (immFlt t)))).flip neg

/-- R310: a two-source float instruction. -/
def fltOp2 (c : Ctx) (s : State) (d : BitVec 8) (a b : Opnd) (t : Ty) (rnd : Rnd) (na nb : Bool) (lat : Nat)
    (f : FFmt → Rnd → Bool → FVal → FVal → Nat × Events) : Eff :=
  laneOp c s d t.regs lat fun l => f (tyFmt t) rnd (c.grid.rec_.ftz t) (c.flt a t na l) (c.flt b t nb l)
/-- R310: a fused multiply-add. -/
def fltOp3 (c : Ctx) (s : State) (d : BitVec 8) (a b x : Opnd) (t : Ty) (rnd : Rnd) (na nb nc : Bool) (lat : Nat) : Eff :=
  laneOp c s d t.regs lat fun l =>
    fFma (tyFmt t) rnd (c.grid.rec_.ftz t) (c.flt a t na l) (c.flt b t nb l) (c.flt x t nc l)
/-- R316, R317: a one-source FP32 instruction. -/
def fltOp1 (c : Ctx) (s : State) (d : BitVec 8) (a : Opnd) (lat : Nat) (f : Bool → FVal → Nat × Events) : Eff :=
  laneOp c s d 1 lat fun l => f c.grid.rec_.ftz32 (c.flt a .f32 false l)

/-- FADD (R310). -/
def execFadd (h : Hdr) (d : BitVec 8) (a b : Opnd) (rnd : Rnd) (na nb : Bool) (s : State) : Host.Outcome State Fault Refusal :=
  issue (.fadd h d a b rnd na nb) s fun c s => fltOp2 c s d a b .f32 rnd na nb 4 fAdd
/-- FSUB (R310). -/
def execFsub (h : Hdr) (d : BitVec 8) (a b : Opnd) (rnd : Rnd) (na nb : Bool) (s : State) : Host.Outcome State Fault Refusal :=
  issue (.fsub h d a b rnd na nb) s fun c s => fltOp2 c s d a b .f32 rnd na (!nb) 4 fAdd
/-- FMUL (R310). -/
def execFmul (h : Hdr) (d : BitVec 8) (a b : Opnd) (rnd : Rnd) (na nb : Bool) (s : State) : Host.Outcome State Fault Refusal :=
  issue (.fmul h d a b rnd na nb) s fun c s => fltOp2 c s d a b .f32 rnd na nb 4 fun f _ ftz x y => fMul f rnd ftz x y
/-- FFMA (R310). -/
def execFfma (h : Hdr) (d : BitVec 8) (a b x : Opnd) (rnd : Rnd) (na nb nc : Bool) (s : State) :
    Host.Outcome State Fault Refusal :=
  issue (.ffma h d a b x rnd na nb nc) s fun c s => fltOp3 c s d a b x .f32 rnd na nb nc 4

/-- R194, R315: an FP32 operand's bits, flushed. -/
def Ctx.bits32 (c : Ctx) (o : Opnd) (lane : Nat) : Nat := fp32.flushIn c.grid.rec_.ftz32 (c.rd o 1 lane (immFlt .f32))
/-- FMIN (R315). -/
def execFmin (h : Hdr) (d : BitVec 8) (a b : Opnd) (s : State) : Host.Outcome State Fault Refusal :=
  issue (.fmin h d a b) s fun c s => laneOp c s d 1 4 fun l => fMinMax fp32 false (c.bits32 a l) (c.bits32 b l)
/-- FMAX (R315). -/
def execFmax (h : Hdr) (d : BitVec 8) (a b : Opnd) (s : State) : Host.Outcome State Fault Refusal :=
  issue (.fmax h d a b) s fun c s => laneOp c s d 1 4 fun l => fMinMax fp32 true (c.bits32 a l) (c.bits32 b l)
/-- FRCP (R316). -/
def execFrcp (h : Hdr) (d : BitVec 8) (a : Opnd) (rnd : Rnd) (s : State) : Host.Outcome State Fault Refusal :=
  issue (.frcp h d a rnd) s fun c s => fltOp1 c s d a 12 (fRcp fp32 rnd)
/-- FRSQ (R316). -/
def execFrsq (h : Hdr) (d : BitVec 8) (a : Opnd) (s : State) : Host.Outcome State Fault Refusal :=
  issue (.frsq h d a) s fun c s => fltOp1 c s d a 12 (fRsq fp32)
/-- FSQRT (R316). -/
def execFsqrt (h : Hdr) (d : BitVec 8) (a : Opnd) (rnd : Rnd) (s : State) : Host.Outcome State Fault Refusal :=
  issue (.fsqrt h d a rnd) s fun c s => fltOp1 c s d a 12 (fSqrt fp32 rnd)
/-- FEXP2 (R316). -/
def execFexp2 (h : Hdr) (d : BitVec 8) (a : Opnd) (s : State) : Host.Outcome State Fault Refusal :=
  issue (.fexp2 h d a) s fun c s => fltOp1 c s d a 12 (fExp2 fp32)
/-- FLOG2 (R316). -/
def execFlog2 (h : Hdr) (d : BitVec 8) (a : Opnd) (s : State) : Host.Outcome State Fault Refusal :=
  issue (.flog2 h d a) s fun c s => fltOp1 c s d a 12 (fLog2 fp32)
/-- FSIN (R316). -/
def execFsin (h : Hdr) (d : BitVec 8) (a : Opnd) (s : State) : Host.Outcome State Fault Refusal :=
  issue (.fsin h d a) s fun c s => fltOp1 c s d a 12 (fSinCos fp32 false)
/-- FCOS (R316). -/
def execFcos (h : Hdr) (d : BitVec 8) (a : Opnd) (s : State) : Host.Outcome State Fault Refusal :=
  issue (.fcos h d a) s fun c s => fltOp1 c s d a 12 (fSinCos fp32 true)
/-- FSCALE (R318): B is a signed 32-bit integer. -/
def execFscale (h : Hdr) (d : BitVec 8) (a b : Opnd) (rnd : Rnd) (s : State) : Host.Outcome State Fault Refusal :=
  issue (.fscale h d a b rnd) s fun c s => laneOp c s d 1 4 fun l =>
    fScale fp32 rnd c.grid.rec_.ftz32 (c.flt a .f32 false l) (readInt .i32 (c.rd b 1 l (immInt .i32)))
/-- FRND (R317). -/
def execFrnd (h : Hdr) (d : BitVec 8) (a : Opnd) (rnd : Rnd) (s : State) : Host.Outcome State Fault Refusal :=
  issue (.frnd h d a rnd) s fun c s => fltOp1 c s d a 4 fun _ x => fRnd fp32 rnd x
/-- FCLASS (R313): no flush and no event. -/
def execFclass (h : Hdr) (d : BitVec 8) (a : Opnd) (ty : Ty) (s : State) : Host.Outcome State Fault Refusal :=
  issue (.fclass h d a ty) s fun c s => lanePure c s d 1 4 fun l => fClass (tyFmt ty) (c.rd a ty.regs l (immFlt ty))

/-- R185, R192: element `j` of two in a register of halves: flushed, its sign inverted where the negation bit says so. -/
def Ctx.half (c : Ctx) (o : Opnd) (t : Ty) (j : Nat) (neg : Bool) (lane : Nat) : FVal :=
  ((tyFmt t).val ((tyFmt t).flushIn (c.grid.rec_.ftz t) (c.rd o 1 lane immZ / 2 ^ (16 * j) % 65536))).flip neg
/-- FDOT2 (R314). -/
def execFdot2 (h : Hdr) (d : BitVec 8) (a b x : Opnd) (ty : Ty) (rnd : Rnd) (na nb nc : Bool) (s : State) :
    Host.Outcome State Fault Refusal :=
  issue (.fdot2 h d a b x ty rnd na nb nc) s fun c s => laneOp c s d 1 4 fun l =>
    fDot2 fp32 rnd c.grid.rec_.ftz32 (c.half a ty 0 na l) (c.half b ty 0 nb l) (c.half a ty 1 na l) (c.half b ty 1 nb l)
      (c.flt x .f32 nc l)
/-- DADD (R310). -/
def execDadd (h : Hdr) (d : BitVec 8) (a b : Opnd) (rnd : Rnd) (na nb : Bool) (s : State) : Host.Outcome State Fault Refusal :=
  issue (.dadd h d a b rnd na nb) s fun c s => fltOp2 c s d a b .f64 rnd na nb 8 fAdd
/-- DMUL (R310). -/
def execDmul (h : Hdr) (d : BitVec 8) (a b : Opnd) (rnd : Rnd) (na nb : Bool) (s : State) : Host.Outcome State Fault Refusal :=
  issue (.dmul h d a b rnd na nb) s fun c s => fltOp2 c s d a b .f64 rnd na nb 8 fMul
/-- DFMA (R310). -/
def execDfma (h : Hdr) (d : BitVec 8) (a b x : Opnd) (rnd : Rnd) (na nb nc : Bool) (s : State) :
    Host.Outcome State Fault Refusal :=
  issue (.dfma h d a b x rnd na nb nc) s fun c s => fltOp3 c s d a b x .f64 rnd na nb nc 8

/-- R319: two elements, each with its own events: those of element 0 and of element 1 count apart. -/
def halfOp (c : Ctx) (s : State) (d : BitVec 8) (f : Nat → Nat → Nat × Events) : Eff :=
  let rs := c.lanes.map fun l => (l, f 0 l, f 1 l)
  .ok (c.note (c.fix s 4 (vecWrites d.toNat 1 (rs.map fun r => (r.1, r.2.1.1 + 65536 * r.2.2.1))))
    (rs.flatMap fun r => [(r.1, r.2.1.2), (r.1, r.2.2.2)]))
/-- R194, R319: the bits of an element as .MIN and .MAX compare them. -/
def Ctx.halfBits (c : Ctx) (o : Opnd) (t : Ty) (j : Nat) (neg : Bool) (lane : Nat) : Nat :=
  let x := (tyFmt t).flushIn (c.grid.rec_.ftz t) (c.rd o 1 lane immZ / 2 ^ (16 * j) % 65536)
  if neg then x ^^^ 0x8000 else x
/-- HADD2 (R319). -/
def execHadd2 (h : Hdr) (d : BitVec 8) (a b : Opnd) (ty : Ty) (rnd : Rnd) (na nb : Bool) (op : H2Op) (s : State) :
    Host.Outcome State Fault Refusal :=
  issue (.hadd2 h d a b ty rnd na nb op) s fun c s => halfOp c s d fun j l =>
    match op with
    | .add => fAdd (tyFmt ty) rnd (c.grid.rec_.ftz ty) (c.half a ty j na l) (c.half b ty j nb l)
    | .min => fMinMax (tyFmt ty) false (c.halfBits a ty j na l) (c.halfBits b ty j nb l)
    | .max => fMinMax (tyFmt ty) true (c.halfBits a ty j na l) (c.halfBits b ty j nb l)
/-- HMUL2 (R319). -/
def execHmul2 (h : Hdr) (d : BitVec 8) (a b : Opnd) (ty : Ty) (rnd : Rnd) (na nb : Bool) (s : State) :
    Host.Outcome State Fault Refusal :=
  issue (.hmul2 h d a b ty rnd na nb) s fun c s => halfOp c s d fun j l =>
    fMul (tyFmt ty) rnd (c.grid.rec_.ftz ty) (c.half a ty j na l) (c.half b ty j nb l)
/-- HFMA2 (R319). -/
def execHfma2 (h : Hdr) (d : BitVec 8) (a b x : Opnd) (ty : Ty) (rnd : Rnd) (na nb nc : Bool) (s : State) :
    Host.Outcome State Fault Refusal :=
  issue (.hfma2 h d a b x ty rnd na nb nc) s fun c s => halfOp c s d fun j l =>
    fFma (tyFmt ty) rnd (c.grid.rec_.ftz ty) (c.half a ty j na l) (c.half b ty j nb l) (c.half x ty j nc l)

end Sys2Proof.Machine
end

