-- ==== Sys2Proof/Machine/Convert.lean ====
section
/-! DEFINITION. Conversions and 4-bit codes (19 R306, R307; 21 R347, R348; 11 R195-R198). -/

namespace Sys2Proof.Machine

/-- R84: the latency of a conversion. -/
def cvtLat (dt st : Ty) : Nat := if dt = .f64 ∨ st = .f64 then 8 else 4

/-- CVT (R306, R307). -/
def execCvt (h : Hdr) (d : BitVec 8) (a : Opnd) (dt st : Ty) (rnd : Rnd) (sat : Bool) (s : State) :
    Host.Outcome State Fault Refusal :=
  issue (.cvt h d a dt st rnd sat) s fun c s => laneOp c s d dt.regs (cvtLat dt st) fun l =>
    cvtElem dt st rnd sat (c.grid.rec_.ftz st) (c.grid.rec_.ftz dt) (c.rd a st.regs l immZ)

/-- R185: element `j` of a group of eight: a register of FP32, or a half of a register of BF16. -/
def Ctx.elem (c : Ctx) (a : BitVec 8) (t : Ty) (j lane : Nat) : Nat :=
  if t = .f32 then (c.w.vreg (a.toNat + j) lane).toNat
  else (c.w.vreg (a.toNat + j / 2) lane).toNat / 2 ^ (16 * (j % 2)) % 65536

/-- QPACK (R347, R348): at most one event of each class in a lane. -/
def execQpack (h : Hdr) (d a : BitVec 8) (b : Opnd) (st : Ty) (s : State) : Host.Outcome State Fault Refusal :=
  issue (.qpack h d a b st) s fun c s => laneOp c s d 1 4 fun l =>
    let scale := c.rd b 1 l immZ % 256
    (List.range 8).foldl (fun acc j =>
      let x := c.elem a st j l
      let r := q4Pack scale ((tyFmt st).val ((tyFmt st).flushIn (c.grid.rec_.ftz st) x))
      (acc.1 + 16 ^ j * r.1, acc.2 ||| r.2)) (0, 0)

/-- R348: the bits of a code's value in FP32 or BF16: exact. -/
def qunpackVal (t : Ty) (scale code : Nat) : Nat :=
  match q4Elem scale code with
  | .fin n m e => ((tyFmt t).round .rn n m e).1
  | _ => 0
/-- QUNPACK (R347, R348): no event. -/
def execQunpack (h : Hdr) (d : BitVec 8) (a b : Opnd) (dt : Ty) (s : State) : Host.Outcome State Fault Refusal :=
  issue (.qunpack h d a b dt) s fun c s =>
    let val : Nat → Nat → Nat := fun j l => qunpackVal dt (c.rd b 1 l immZ % 256) (c.rd a 1 l immZ / 16 ^ j % 16)
    .ok (c.fix s 4 (if dt = .f32 then
        (List.range 8).map fun j => (.v (d.toNat + j), c.lanes.map fun l => (l, BitVec.ofNat 32 (val j l)))
      else
        (List.range 4).map fun j =>
          (.v (d.toNat + j), c.lanes.map fun l => (l, BitVec.ofNat 32 (val (2 * j) l + 65536 * val (2 * j + 1) l)))))

end Sys2Proof.Machine
end

