-- ==== Sys2Proof/Machine/Scalar.lean ====
section
/-! DEFINITION. The scalar class: each instruction acts once (R288) and has latency 2 (22 R354-R368). -/

namespace Sys2Proof.Machine

/-- R355: a scalar arithmetic instruction. -/
def scaArith (c : Ctx) (s : State) (d a : BitVec 7) (b : Opnd) (t : Ty) (f : Int → Int → Int) : Eff :=
  scalarOp c s d t.regs 2
    (writeInt t (f (readInt t (c.rd1 (.s a) t.regs immZ)) (readInt t (c.rd1 b t.regs (immInt t)))), 0)
/-- SADD (R355). -/
def execSadd (h : Hdr) (d a : BitVec 7) (b : Opnd) (ty : Ty) (s : State) : Host.Outcome State Fault Refusal :=
  issue (.sadd h d a b ty) s fun c s => scaArith c s d a b ty fun x y => x + y
/-- SSUB (R355). -/
def execSsub (h : Hdr) (d a : BitVec 7) (b : Opnd) (ty : Ty) (s : State) : Host.Outcome State Fault Refusal :=
  issue (.ssub h d a b ty) s fun c s => scaArith c s d a b ty fun x y => x - y
/-- SMUL (R355). -/
def execSmul (h : Hdr) (d a : BitVec 7) (b : Opnd) (ty : Ty) (s : State) : Host.Outcome State Fault Refusal :=
  issue (.smul h d a b ty) s fun c s => scaArith c s d a b ty fun x y => x * y
/-- SMIN (R355). -/
def execSmin (h : Hdr) (d a : BitVec 7) (b : Opnd) (ty : Ty) (s : State) : Host.Outcome State Fault Refusal :=
  issue (.smin h d a b ty) s fun c s => scaArith c s d a b ty fun x y => min x y
/-- SMAX (R355). -/
def execSmax (h : Hdr) (d a : BitVec 7) (b : Opnd) (ty : Ty) (s : State) : Host.Outcome State Fault Refusal :=
  issue (.smax h d a b ty) s fun c s => scaArith c s d a b ty fun x y => max x y
/-- SLOP3 (R364). -/
def execSlop3 (h : Hdr) (d a b x : BitVec 7) (ty : Ty) (t : BitVec 8) (s : State) : Host.Outcome State Fault Refusal :=
  issue (.slop3 h d a b x ty t) s fun c s => scalarOp c s d ty.regs 2
    (lop3Val ty.bits t (c.rd1 (.s a) ty.regs immZ) (c.rd1 (.s b) ty.regs immZ) (c.rd1 (.s x) ty.regs immZ), 0)
/-- SSHL (R368). -/
def execSshl (h : Hdr) (d a : BitVec 7) (b : Opnd) (ty : Ty) (s : State) : Host.Outcome State Fault Refusal :=
  issue (.sshl h d a b ty) s fun c s =>
    scalarOp c s d ty.regs 2 (shlVal ty.bits (c.rd1 (.s a) ty.regs immZ) (c.rd1 b 1 immZ), 0)
/-- SSHR (R368): SHR for .N types, SHRA for .I types. -/
def execSshr (h : Hdr) (d a : BitVec 7) (b : Opnd) (ty : Ty) (s : State) : Host.Outcome State Fault Refusal :=
  issue (.sshr h d a b ty) s fun c s =>
    let x := c.rd1 (.s a) ty.regs immZ
    let n := c.rd1 b 1 immZ
    scalarOp c s d ty.regs 2 (if ty.signed then shraVal ty x n else shrVal ty.bits x n, 0)
/-- SLEA (R362). -/
def execSlea (h : Hdr) (d a b : BitVec 7) (ty : Ty) (sx : Bool) (sh : BitVec 5) (s : State) :
    Host.Outcome State Fault Refusal :=
  issue (.slea h d a b ty sx sh) s fun c s =>
    scalarOp c s d ty.regs 2 (leaVal ty (c.rd1 (.s a) ty.regs immZ) (c.rd1 (.s b) 1 immZ) sx sh, 0)
/-- SMOV (R365). -/
def execSmov (h : Hdr) (d : BitVec 7) (a : Opnd) (ty : Ty) (s : State) : Host.Outcome State Fault Refusal :=
  issue (.smov h d a ty) s fun c s => scalarOp c s d ty.regs 2 (c.rd1 a ty.regs immS, 0)
/-- SCVT (R356): to nearest even, never flushed. -/
def execScvt (h : Hdr) (d a : BitVec 7) (dt st : Ty) (sat : Bool) (s : State) : Host.Outcome State Fault Refusal :=
  issue (.scvt h d a dt st sat) s fun c s =>
    scalarOp c s d dt.regs 2 (cvtElem dt st .rn sat false false (c.rd1 (.s a) st.regs immZ))
/-- R367: a scalar compare's FP32 operands are flushed as SETP's are. -/
def ssetpVal (c : Ctx) (a : BitVec 7) (b : Opnd) (t : Ty) (cond : Cond) : Bool × Events :=
  let imm := if t.isInt then immInt t else immFlt t
  setpVal t cond c.grid.rec_.ftz32 (c.rd1 (.s a) t.regs imm) (c.rd1 b t.regs imm)
/-- SSETP (R367): the handler's predicate in handler mode, else the predicate of every selected lane. -/
def execSsetp (h : Hdr) (d : BitVec 3) (a : BitVec 7) (b : Opnd) (ty : Ty) (cond : Cond) (s : State) :
    Host.Outcome State Fault Refusal :=
  issue (.ssetp h d a b ty cond) s fun c s =>
    let r := ssetpVal c a b ty cond
    if c.any then .ok (c.noteOnce (c.fix s 2 (predWrites d.toNat (c.lanes.map fun l => (l, r.1)))) r.2) else .ok s
/-- SSEL (R366): the handler's predicate in handler mode, else the predicate in the lowest selected lane. -/
def execSsel (h : Hdr) (d a : BitVec 7) (b : Opnd) (ty : Ty) (p : BitVec 3) (neg : Bool) (s : State) :
    Host.Outcome State Fault Refusal :=
  issue (.ssel h d a b ty p neg) s fun c s =>
    scalarOp c s d ty.regs 2
      (if (c.rd1 (.p p) 1 immZ == 1) != neg then c.rd1 (.s a) ty.regs immS else c.rd1 b ty.regs immS, 0)

end Sys2Proof.Machine
end

