-- ==== Sys2Proof/Machine/Dispatch.lean ====
section
/-! DEFINITION. The dispatch: one arm for each constructor of `Instr`, each a direct call of its meaning. -/

namespace Sys2Proof.Machine

/-- The meaning of an instruction or event. -/
def exec (i : Instr) (s : State) : Host.Outcome State Fault Refusal :=
  match i with
  | .nop x0 => Sys2Proof.Machine.execNop x0 s
  | .bra x0 x1 => Sys2Proof.Machine.execBra x0 x1 s
  | .braDual x0 x1 x2 x3 => Sys2Proof.Machine.execBraDual x0 x1 x2 x3 s
  | .braSplit x0 x1 x2 x3 => Sys2Proof.Machine.execBraSplit x0 x1 x2 x3 s
  | .brx x0 x1 => Sys2Proof.Machine.execBrx x0 x1 s
  | .call x0 x1 x2 => Sys2Proof.Machine.execCall x0 x1 x2 s
  | .ret x0 x1 => Sys2Proof.Machine.execRet x0 x1 s
  | .join x0 => Sys2Proof.Machine.execJoin x0 s
  | .exit x0 => Sys2Proof.Machine.execExit x0 s
  | .yield x0 => Sys2Proof.Machine.execYield x0 s
  | .sleep x0 x1 => Sys2Proof.Machine.execSleep x0 x1 s
  | .elect x0 x1 x2 => Sys2Proof.Machine.execElect x0 x1 x2 s
  | .vote x0 x1 x2 x3 => Sys2Proof.Machine.execVote x0 x1 x2 x3 s
  | .iadd x0 x1 x2 x3 x4 x5 => Sys2Proof.Machine.execIadd x0 x1 x2 x3 x4 x5 s
  | .isub x0 x1 x2 x3 x4 x5 => Sys2Proof.Machine.execIsub x0 x1 x2 x3 x4 x5 s
  | .imul x0 x1 x2 x3 x4 x5 => Sys2Proof.Machine.execImul x0 x1 x2 x3 x4 x5 s
  | .imulhi x0 x1 x2 x3 x4 => Sys2Proof.Machine.execImulhi x0 x1 x2 x3 x4 s
  | .imad x0 x1 x2 x3 x4 x5 x6 => Sys2Proof.Machine.execImad x0 x1 x2 x3 x4 x5 x6 s
  | .imin x0 x1 x2 x3 x4 => Sys2Proof.Machine.execImin x0 x1 x2 x3 x4 s
  | .imax x0 x1 x2 x3 x4 => Sys2Proof.Machine.execImax x0 x1 x2 x3 x4 s
  | .iabs x0 x1 x2 x3 x4 => Sys2Proof.Machine.execIabs x0 x1 x2 x3 x4 s
  | .isad x0 x1 x2 x3 x4 x5 x6 => Sys2Proof.Machine.execIsad x0 x1 x2 x3 x4 x5 x6 s
  | .idot4 x0 x1 x2 x3 x4 x5 x6 x7 => Sys2Proof.Machine.execIdot4 x0 x1 x2 x3 x4 x5 x6 x7 s
  | .lop3 x0 x1 x2 x3 x4 x5 x6 => Sys2Proof.Machine.execLop3 x0 x1 x2 x3 x4 x5 x6 s
  | .shl x0 x1 x2 x3 x4 => Sys2Proof.Machine.execShl x0 x1 x2 x3 x4 s
  | .shr x0 x1 x2 x3 x4 => Sys2Proof.Machine.execShr x0 x1 x2 x3 x4 s
  | .shra x0 x1 x2 x3 x4 => Sys2Proof.Machine.execShra x0 x1 x2 x3 x4 s
  | .rot x0 x1 x2 x3 x4 x5 => Sys2Proof.Machine.execRot x0 x1 x2 x3 x4 x5 s
  | .shf x0 x1 x2 x3 x4 x5 => Sys2Proof.Machine.execShf x0 x1 x2 x3 x4 x5 s
  | .bfe x0 x1 x2 x3 x4 => Sys2Proof.Machine.execBfe x0 x1 x2 x3 x4 s
  | .bfi x0 x1 x2 x3 x4 => Sys2Proof.Machine.execBfi x0 x1 x2 x3 x4 s
  | .popc x0 x1 x2 x3 => Sys2Proof.Machine.execPopc x0 x1 x2 x3 s
  | .clz x0 x1 x2 x3 => Sys2Proof.Machine.execClz x0 x1 x2 x3 s
  | .brev x0 x1 x2 x3 => Sys2Proof.Machine.execBrev x0 x1 x2 x3 s
  | .prmt x0 x1 x2 x3 x4 => Sys2Proof.Machine.execPrmt x0 x1 x2 x3 x4 s
  | .lea x0 x1 x2 x3 x4 x5 x6 => Sys2Proof.Machine.execLea x0 x1 x2 x3 x4 x5 x6 s
  | .mov x0 x1 x2 x3 => Sys2Proof.Machine.execMov x0 x1 x2 x3 s
  | .movi x0 x1 x2 => Sys2Proof.Machine.execMovi x0 x1 x2 s
  | .shfl x0 x1 x2 x3 x4 x5 x6 => Sys2Proof.Machine.execShfl x0 x1 x2 x3 x4 x5 x6 s
  | .readlane x0 x1 x2 x3 x4 => Sys2Proof.Machine.execReadlane x0 x1 x2 x3 x4 s
  | .wred x0 x1 x2 x3 x4 x5 => Sys2Proof.Machine.execWred x0 x1 x2 x3 x4 x5 s
  | .wscan x0 x1 x2 x3 x4 x5 x6 => Sys2Proof.Machine.execWscan x0 x1 x2 x3 x4 x5 x6 s
  | .setp x0 x1 x2 x3 x4 x5 => Sys2Proof.Machine.execSetp x0 x1 x2 x3 x4 x5 s
  | .plop x0 x1 x2 x3 x4 x5 => Sys2Proof.Machine.execPlop x0 x1 x2 x3 x4 x5 s
  | .sel x0 x1 x2 x3 x4 x5 x6 => Sys2Proof.Machine.execSel x0 x1 x2 x3 x4 x5 x6 s
  | .fadd x0 x1 x2 x3 x4 x5 x6 => Sys2Proof.Machine.execFadd x0 x1 x2 x3 x4 x5 x6 s
  | .fsub x0 x1 x2 x3 x4 x5 x6 => Sys2Proof.Machine.execFsub x0 x1 x2 x3 x4 x5 x6 s
  | .fmul x0 x1 x2 x3 x4 x5 x6 => Sys2Proof.Machine.execFmul x0 x1 x2 x3 x4 x5 x6 s
  | .ffma x0 x1 x2 x3 x4 x5 x6 x7 x8 => Sys2Proof.Machine.execFfma x0 x1 x2 x3 x4 x5 x6 x7 x8 s
  | .fmin x0 x1 x2 x3 => Sys2Proof.Machine.execFmin x0 x1 x2 x3 s
  | .fmax x0 x1 x2 x3 => Sys2Proof.Machine.execFmax x0 x1 x2 x3 s
  | .frcp x0 x1 x2 x3 => Sys2Proof.Machine.execFrcp x0 x1 x2 x3 s
  | .frsq x0 x1 x2 => Sys2Proof.Machine.execFrsq x0 x1 x2 s
  | .fsqrt x0 x1 x2 x3 => Sys2Proof.Machine.execFsqrt x0 x1 x2 x3 s
  | .fexp2 x0 x1 x2 => Sys2Proof.Machine.execFexp2 x0 x1 x2 s
  | .flog2 x0 x1 x2 => Sys2Proof.Machine.execFlog2 x0 x1 x2 s
  | .fsin x0 x1 x2 => Sys2Proof.Machine.execFsin x0 x1 x2 s
  | .fcos x0 x1 x2 => Sys2Proof.Machine.execFcos x0 x1 x2 s
  | .fscale x0 x1 x2 x3 x4 => Sys2Proof.Machine.execFscale x0 x1 x2 x3 x4 s
  | .frnd x0 x1 x2 x3 => Sys2Proof.Machine.execFrnd x0 x1 x2 x3 s
  | .fclass x0 x1 x2 x3 => Sys2Proof.Machine.execFclass x0 x1 x2 x3 s
  | .fdot2 x0 x1 x2 x3 x4 x5 x6 x7 x8 x9 => Sys2Proof.Machine.execFdot2 x0 x1 x2 x3 x4 x5 x6 x7 x8 x9 s
  | .dadd x0 x1 x2 x3 x4 x5 x6 => Sys2Proof.Machine.execDadd x0 x1 x2 x3 x4 x5 x6 s
  | .dmul x0 x1 x2 x3 x4 x5 x6 => Sys2Proof.Machine.execDmul x0 x1 x2 x3 x4 x5 x6 s
  | .dfma x0 x1 x2 x3 x4 x5 x6 x7 x8 => Sys2Proof.Machine.execDfma x0 x1 x2 x3 x4 x5 x6 x7 x8 s
  | .hadd2 x0 x1 x2 x3 x4 x5 x6 x7 x8 => Sys2Proof.Machine.execHadd2 x0 x1 x2 x3 x4 x5 x6 x7 x8 s
  | .hmul2 x0 x1 x2 x3 x4 x5 x6 x7 => Sys2Proof.Machine.execHmul2 x0 x1 x2 x3 x4 x5 x6 x7 s
  | .hfma2 x0 x1 x2 x3 x4 x5 x6 x7 x8 x9 => Sys2Proof.Machine.execHfma2 x0 x1 x2 x3 x4 x5 x6 x7 x8 x9 s
  | .cvt x0 x1 x2 x3 x4 x5 x6 => Sys2Proof.Machine.execCvt x0 x1 x2 x3 x4 x5 x6 s
  | .qpack x0 x1 x2 x3 x4 => Sys2Proof.Machine.execQpack x0 x1 x2 x3 x4 s
  | .qunpack x0 x1 x2 x3 x4 => Sys2Proof.Machine.execQunpack x0 x1 x2 x3 x4 s
  | .open x0 x1 x2 x3 x4 x5 x6 x7 => Sys2Proof.Machine.execOpen x0 x1 x2 x3 x4 x5 x6 x7 s
  | .close x0 x1 => Sys2Proof.Machine.execClose x0 x1 s
  | .reopen x0 x1 x2 x3 => Sys2Proof.Machine.execReopen x0 x1 x2 x3 s
  | .reopenTrap x0 x1 x2 => Sys2Proof.Machine.execReopenTrap x0 x1 x2 s
  | .wquery x0 x1 x2 x3 => Sys2Proof.Machine.execWquery x0 x1 x2 x3 s
  | .ldw x0 x1 x2 x3 x4 x5 x6 => Sys2Proof.Machine.execLdw x0 x1 x2 x3 x4 x5 x6 s
  | .ldws x0 x1 x2 x3 x4 x5 x6 => Sys2Proof.Machine.execLdws x0 x1 x2 x3 x4 x5 x6 s
  | .stw x0 x1 x2 x3 x4 x5 x6 => Sys2Proof.Machine.execStw x0 x1 x2 x3 x4 x5 x6 s
  | .stws x0 x1 x2 x3 x4 x5 x6 => Sys2Proof.Machine.execStws x0 x1 x2 x3 x4 x5 x6 s
  | .ldl x0 x1 x2 x3 x4 x5 => Sys2Proof.Machine.execLdl x0 x1 x2 x3 x4 x5 s
  | .stl x0 x1 x2 x3 x4 x5 => Sys2Proof.Machine.execStl x0 x1 x2 x3 x4 x5 s
  | .cstw x0 x1 x2 x3 x4 x5 => Sys2Proof.Machine.execCstw x0 x1 x2 x3 x4 x5 s
  | .commit x0 x1 x2 x3 => Sys2Proof.Machine.execCommit x0 x1 x2 x3 s
  | .abort x0 x1 x2 => Sys2Proof.Machine.execAbort x0 x1 x2 s
  | .acquire x0 x1 x2 => Sys2Proof.Machine.execAcquire x0 x1 x2 s
  | .atom x0 x1 x2 x3 x4 x5 x6 x7 x8 => Sys2Proof.Machine.execAtom x0 x1 x2 x3 x4 x5 x6 x7 x8 s
  | .red x0 x1 x2 x3 x4 x5 x6 => Sys2Proof.Machine.execRed x0 x1 x2 x3 x4 x5 x6 s
  | .ifence x0 => Sys2Proof.Machine.execIfence x0 s
  | .arrive x0 x1 x2 x3 => Sys2Proof.Machine.execArrive x0 x1 x2 x3 s
  | .waitb x0 x1 x2 x3 x4 => Sys2Proof.Machine.execWaitb x0 x1 x2 x3 x4 s
  | .barsync x0 x1 x2 x3 x4 => Sys2Proof.Machine.execBarsync x0 x1 x2 x3 x4 s
  | .barq x0 x1 x2 x3 => Sys2Proof.Machine.execBarq x0 x1 x2 x3 s
  | .barqReset x0 x1 x2 => Sys2Proof.Machine.execBarqReset x0 x1 x2 s
  | .waitn x0 x1 x2 x3 x4 => Sys2Proof.Machine.execWaitn x0 x1 x2 x3 x4 s
  | .waitk x0 x1 x2 x3 => Sys2Proof.Machine.execWaitk x0 x1 x2 x3 s
  | .cpy x0 x1 x2 x3 x4 x5 => Sys2Proof.Machine.execCpy x0 x1 x2 x3 x4 x5 s
  | .bina x0 x1 x2 x3 x4 x5 => Sys2Proof.Machine.execBina x0 x1 x2 x3 x4 x5 s
  | .binr x0 x1 x2 x3 x4 => Sys2Proof.Machine.execBinr x0 x1 x2 x3 x4 s
  | .isect x0 x1 x2 x3 x4 => Sys2Proof.Machine.execIsect x0 x1 x2 x3 x4 s
  | .mma x0 x1 x2 x3 x4 x5 => Sys2Proof.Machine.execMma x0 x1 x2 x3 x4 x5 s
  | .mxld x0 x1 x2 x3 x4 x5 => Sys2Proof.Machine.execMxld x0 x1 x2 x3 x4 x5 s
  | .mxst x0 x1 x2 x3 x4 x5 x6 x7 => Sys2Proof.Machine.execMxst x0 x1 x2 x3 x4 x5 x6 x7 s
  | .mxz x0 x1 x2 x3 x4 => Sys2Proof.Machine.execMxz x0 x1 x2 x3 x4 s
  | .launch x0 x1 x2 x3 => Sys2Proof.Machine.execLaunch x0 x1 x2 x3 s
  | .vregs x0 x1 x2 x3 => Sys2Proof.Machine.execVregs x0 x1 x2 x3 s
  | .sadd x0 x1 x2 x3 x4 => Sys2Proof.Machine.execSadd x0 x1 x2 x3 x4 s
  | .ssub x0 x1 x2 x3 x4 => Sys2Proof.Machine.execSsub x0 x1 x2 x3 x4 s
  | .smul x0 x1 x2 x3 x4 => Sys2Proof.Machine.execSmul x0 x1 x2 x3 x4 s
  | .smin x0 x1 x2 x3 x4 => Sys2Proof.Machine.execSmin x0 x1 x2 x3 x4 s
  | .smax x0 x1 x2 x3 x4 => Sys2Proof.Machine.execSmax x0 x1 x2 x3 x4 s
  | .slop3 x0 x1 x2 x3 x4 x5 x6 => Sys2Proof.Machine.execSlop3 x0 x1 x2 x3 x4 x5 x6 s
  | .sshl x0 x1 x2 x3 x4 => Sys2Proof.Machine.execSshl x0 x1 x2 x3 x4 s
  | .sshr x0 x1 x2 x3 x4 => Sys2Proof.Machine.execSshr x0 x1 x2 x3 x4 s
  | .slea x0 x1 x2 x3 x4 x5 x6 => Sys2Proof.Machine.execSlea x0 x1 x2 x3 x4 x5 x6 s
  | .smov x0 x1 x2 x3 => Sys2Proof.Machine.execSmov x0 x1 x2 x3 s
  | .scvt x0 x1 x2 x3 x4 x5 => Sys2Proof.Machine.execScvt x0 x1 x2 x3 x4 x5 s
  | .ssetp x0 x1 x2 x3 x4 x5 => Sys2Proof.Machine.execSsetp x0 x1 x2 x3 x4 x5 s
  | .ssel x0 x1 x2 x3 x4 x5 x6 => Sys2Proof.Machine.execSsel x0 x1 x2 x3 x4 x5 x6 s
  | .trap x0 x1 => Sys2Proof.Machine.execTrap x0 x1 s
  | .tret x0 => Sys2Proof.Machine.execTret x0 s
  | .mfs x0 x1 x2 => Sys2Proof.Machine.execMfs x0 x1 x2 s
  | .mts x0 x1 x2 => Sys2Proof.Machine.execMts x0 x1 x2 s
  | .mtsExcctl x0 x1 => Sys2Proof.Machine.execMtsExcctl x0 x1 s
  | .mtsExccount x0 x1 => Sys2Proof.Machine.execMtsExccount x0 x1 s
  | .mtsExcwin x0 x1 => Sys2Proof.Machine.execMtsExcwin x0 x1 s
  | .mtsFaultmask x0 x1 => Sys2Proof.Machine.execMtsFaultmask x0 x1 s
  | .mtsTrappc x0 x1 => Sys2Proof.Machine.execMtsTrappc x0 x1 s
  | .xcinv x0 x1 x2 x3 => Sys2Proof.Machine.execXcinv x0 x1 x2 x3 s
  | .msgs x0 x1 x2 x3 => Sys2Proof.Machine.execMsgs x0 x1 x2 x3 s
  | .msgr x0 x1 x2 => Sys2Proof.Machine.execMsgr x0 x1 x2 s
  | .halt x0 => Sys2Proof.Machine.execHalt x0 s
  | .openFaultTrap x0 => Sys2Proof.Machine.execOpenFaultTrap x0 s
  | .matrixTrap x0 => Sys2Proof.Machine.execMatrixTrap x0 s
  | .commitCompletion x0 => Sys2Proof.Machine.execCommitCompletion x0 s
  | .abortCompletion x0 => Sys2Proof.Machine.execAbortCompletion x0 s
  | .acquireCompletion x0 => Sys2Proof.Machine.execAcquireCompletion x0 s
  | .strongAccessPerform x0 => Sys2Proof.Machine.execStrongAccessPerform x0 s
  | .atomCompletion x0 x1 => Sys2Proof.Machine.execAtomCompletion x0 x1 s
  | .arrivalRegister x0 => Sys2Proof.Machine.execArrivalRegister x0 s
  | .transactionBytesLand x0 => Sys2Proof.Machine.execTransactionBytesLand x0 s
  | .waitTimeout x0 => Sys2Proof.Machine.execWaitTimeout x0 s
  | .yieldExpiry x0 => Sys2Proof.Machine.execYieldExpiry x0 s
  | .sleepExpiry x0 => Sys2Proof.Machine.execSleepExpiry x0 s
  | .openFetchReturn x0 x1 x2 => Sys2Proof.Machine.execOpenFetchReturn x0 x1 x2 s
  | .engineLineRelease x0 => Sys2Proof.Machine.execEngineLineRelease x0 s
  | .priResponse x0 x1 x2 x3 => Sys2Proof.Machine.execPriResponse x0 x1 x2 x3 s
  | .registerLineReturn x0 x1 => Sys2Proof.Machine.execRegisterLineReturn x0 x1 s
  | .vregsGrowthMet x0 => Sys2Proof.Machine.execVregsGrowthMet x0 s
  | .waveReserveAgain x0 => Sys2Proof.Machine.execWaveReserveAgain x0 s
  | .lineRecall x0 x1 => Sys2Proof.Machine.execLineRecall x0 x1 s
  | .deviceUpdateApply x0 x1 => Sys2Proof.Machine.execDeviceUpdateApply x0 x1 s
  | .cpyIssue x0 x1 x2 => Sys2Proof.Machine.execCpyIssue x0 x1 x2 s
  | .cpyCollectionTimeout x0 x1 x2 => Sys2Proof.Machine.execCpyCollectionTimeout x0 x1 x2 s
  | .cpyCompletion x0 x1 x2 => Sys2Proof.Machine.execCpyCompletion x0 x1 x2 s
  | .binaCompletion x0 => Sys2Proof.Machine.execBinaCompletion x0 s
  | .binrReplay x0 => Sys2Proof.Machine.execBinrReplay x0 s
  | .binrCompletion x0 => Sys2Proof.Machine.execBinrCompletion x0 s
  | .hearthQueueDispatch x0 x1 => Sys2Proof.Machine.execHearthQueueDispatch x0 x1 s
  | .mmaCompletion x0 x1 => Sys2Proof.Machine.execMmaCompletion x0 x1 s
  | .mxldCompletion x0 x1 => Sys2Proof.Machine.execMxldCompletion x0 x1 s
  | .mxstCompletion x0 x1 x2 => Sys2Proof.Machine.execMxstCompletion x0 x1 x2 s
  | .mxzCompletion x0 x1 => Sys2Proof.Machine.execMxzCompletion x0 x1 s
  | .hearthQuiescent x0 x1 x2 => Sys2Proof.Machine.execHearthQuiescent x0 x1 x2 s
  | .launchAcceptance x0 => Sys2Proof.Machine.execLaunchAcceptance x0 s
  | .launchDependencesMet x0 => Sys2Proof.Machine.execLaunchDependencesMet x0 s
  | .blockAdmit x0 x1 x2 x3 => Sys2Proof.Machine.execBlockAdmit x0 x1 x2 x3 s
  | .blockResume x0 x1 x2 x3 => Sys2Proof.Machine.execBlockResume x0 x1 x2 x3 s
  | .preemption x0 x1 => Sys2Proof.Machine.execPreemption x0 x1 s
  | .timeSliceExpiry x0 x1 => Sys2Proof.Machine.execTimeSliceExpiry x0 x1 s
  | .recarve x0 x1 => Sys2Proof.Machine.execRecarve x0 x1 s
  | .waveEnds x0 => Sys2Proof.Machine.execWaveEnds x0 s
  | .gridRetire x0 => Sys2Proof.Machine.execGridRetire x0 s
  | .excWindowEnd x0 x1 => Sys2Proof.Machine.execExcWindowEnd x0 x1 s
  | .ceWindowEnd x0 x1 => Sys2Proof.Machine.execCeWindowEnd x0 x1 s
  | .correctedError x0 x1 => Sys2Proof.Machine.execCorrectedError x0 x1 s
  | .sramUe x0 => Sys2Proof.Machine.execSramUe x0 s
  | .memoryUe x0 x1 x2 x3 => Sys2Proof.Machine.execMemoryUe x0 x1 x2 x3 s
  | .link x0 x1 x2 x3 => Sys2Proof.Machine.execLink x0 x1 x2 x3 s
  | .thermal x0 x1 => Sys2Proof.Machine.execThermal x0 x1 s
  | .contextPageTimeout x0 => Sys2Proof.Machine.execContextPageTimeout x0 s
  | .contextPageFreed x0 => Sys2Proof.Machine.execContextPageFreed x0 s
  | .powerOnReset x0 => Sys2Proof.Machine.execPowerOnReset x0 s
  | .letterboxWrite x0 x1 x2 => Sys2Proof.Machine.execLetterboxWrite x0 x1 x2 s
  | .letterboxRead x0 x1 => Sys2Proof.Machine.execLetterboxRead x0 x1 s
  | .sessionOpen x0 x1 x2 x3 x4 => Sys2Proof.Machine.execSessionOpen x0 x1 x2 x3 x4 s
  | .sessionClose x0 => Sys2Proof.Machine.execSessionClose x0 s
  | .launchCall x0 => Sys2Proof.Machine.execLaunchCall x0 s
  | .map x0 x1 x2 x3 x4 x5 => Sys2Proof.Machine.execMap x0 x1 x2 x3 x4 x5 s
  | .unmap x0 x1 x2 x3 => Sys2Proof.Machine.execUnmap x0 x1 x2 x3 s
  | .migrate x0 x1 x2 x3 => Sys2Proof.Machine.execMigrate x0 x1 x2 x3 s
  | .memcpy x0 x1 x2 x3 => Sys2Proof.Machine.execMemcpy x0 x1 x2 x3 s
  | .setSlice x0 x1 => Sys2Proof.Machine.execSetSlice x0 x1 s
  | .debugHalt x0 x1 => Sys2Proof.Machine.execDebugHalt x0 x1 s
  | .debugResume x0 x1 x2 => Sys2Proof.Machine.execDebugResume x0 x1 x2 s
  | .contextRead x0 x1 x2 x3 x4 x5 => Sys2Proof.Machine.execContextRead x0 x1 x2 x3 x4 x5 s
  | .waveResume x0 x1 x2 x3 => Sys2Proof.Machine.execWaveResume x0 x1 x2 x3 s
  | .waveEnd x0 x1 => Sys2Proof.Machine.execWaveEnd x0 x1 s
  | .coreRetire x0 x1 => Sys2Proof.Machine.execCoreRetire x0 x1 s
  | .coreSpare x0 x1 => Sys2Proof.Machine.execCoreSpare x0 x1 s
  | .hbmSpare x0 x1 x2 x3 => Sys2Proof.Machine.execHbmSpare x0 x1 x2 x3 s
  | .laneRepair x0 x1 x2 x3 => Sys2Proof.Machine.execLaneRepair x0 x1 x2 x3 s
  | .dieReset x0 x1 => Sys2Proof.Machine.execDieReset x0 x1 s
  | .dieAdmit x0 x1 => Sys2Proof.Machine.execDieAdmit x0 x1 s
  | .ceSet x0 x1 x2 x3 x4 => Sys2Proof.Machine.execCeSet x0 x1 x2 x3 x4 s
  | .power x0 x1 x2 => Sys2Proof.Machine.execPower x0 x1 x2 s
  | .powerChangeEffect x0 => Sys2Proof.Machine.execPowerChangeEffect x0 s
  | .fwUpdate x0 x1 x2 x3 => Sys2Proof.Machine.execFwUpdate x0 x1 x2 x3 s
  | .fwImageSwitch x0 => Sys2Proof.Machine.execFwImageSwitch x0 s
  | .attest x0 x1 x2 => Sys2Proof.Machine.execAttest x0 x1 x2 s
  | .identity x0 => Sys2Proof.Machine.execIdentity x0 s
  | .atsInvalidation x0 x1 x2 x3 => Sys2Proof.Machine.execAtsInvalidation x0 x1 x2 x3 s
  | .dataFrame x0 x1 x2 x3 x4 => Sys2Proof.Machine.execDataFrame x0 x1 x2 x3 x4 s
  | .frameResend x0 => Sys2Proof.Machine.execFrameResend x0 s
  | .replyRingSpace x0 => Sys2Proof.Machine.execReplyRingSpace x0 s
  | .overdue x0 => Sys2Proof.Machine.execOverdue x0 s
  | .fixedLatencyResultLands x0 x1 => Sys2Proof.Machine.execFixedLatencyResultLands x0 x1 s
  | .unassignedOpcode x0 x1 => Sys2Proof.Machine.execUnassignedOpcode x0 x1 s
  | .codeLineFetch x0 => Sys2Proof.Machine.execCodeLineFetch x0 s
  | .messageSent x0 => Sys2Proof.Machine.execMessageSent x0 s
  | .xcinvCompletion x0 => Sys2Proof.Machine.execXcinvCompletion x0 s
  | .atsTranslationReply x0 x1 x2 x3 x4 => Sys2Proof.Machine.execAtsTranslationReply x0 x1 x2 x3 x4 s
  | .peerReplyFrame x0 x1 => Sys2Proof.Machine.execPeerReplyFrame x0 x1 s

end Sys2Proof.Machine
end

