-- ==== Sys2Proof/Machine/Fetch.lean ====
section
/-! DEFINITION. Fetching and issuing one instruction (04 R74, R90; 05 R106; 17 R259), and what a step does in its order: inputs, what is
due, issues, completions, and the end of a clock. -/

namespace Sys2Proof.Machine

/-! The next instruction of a path. -/

/-- What stands at a path's PC in the fetch buffers of its core. -/
inductive Fetched where
  /-- The line is not there. -/
  | away
  /-- The line was found uncorrectable. -/
  | bad
  | word (w : IWord)
  deriving DecidableEq, Repr
/-- The word at the PC of the issuing path. -/
def State.fetched (s : State) (c : Ctx) : Fetched :=
  match (s.core c.w.core).codeLine (s.spaceOf c.id.grid) c.pc with
  | none => .away
  | some (line, bad) => if bad then .bad else .word (slotWord line c.pc)
/-- Whether the fetch of the line at the PC can end now: its translation does not wait for the host and its home die is online. -/
def State.fetchable (s : State) (c : Ctx) : Bool :=
  match s.look c.w.core.die (s.spaceOf c.id.grid) (128 * pcLine c.pc) needX with
  | .wait => false
  | .fail => true
  | .ok pa => s.lineUp (pa / 128)
/-- R90 steps 3 to 8: the trap of a word that fails a check of the decoder. Privilege and the handler subset come first. So does an MFS in handler
mode with a vector D whose special-register number is listed nowhere: R334 has such a number OPERAND_RANGE in every mode, R90 and R335 the vector
form PRIV at step 3, and the model takes PRIV (DEDUCED, log entry 97). -/
def Ctx.wordTrap (c : Ctx) (w : IWord) (e : DecodeErr) : Trap :=
  let i := build (Fields.ofWord w)
  if (c.hand && !inSubset i) || (needsPriv i && !c.hand && !c.w.firmware) then c.exact .priv 0 .none c.mask 0
  else c.exact .illegal e.sub.code e.field c.mask 0
/-- R204, R259: the EXC_THRESHOLD trap that is due before the next issue of a split, be it of the path that met the event or of another. -/
def Wave.excDue (w : Wave) (k : Nat) : Option Trap :=
  w.due.find? fun t => t.cause == .excThreshold && (t.atNext || t.split == k)
/-- The EXC_THRESHOLD trap taken by a path. -/
def State.takeExc (s : State) (c : Ctx) (w : Wave) (t : Trap) : State :=
  (s.setWave c.id { w with due := w.due.erase t }).takeTrap c.id
    { t with trappc := c.pc, split := c.split, second := c.second, atNext := false, record := { t.record with split := c.split } }

/-- R85, R88, R106: whether the instruction at the PC does not hold. -/
def State.clear (s : State) (c : Ctx) : Bool :=
  match s.fetched c with
  | .away => s.fetchable c
  | .bad => true
  | .word x => match decode x with
    | .ok i => let c := c.guard i; (entryTrap i c).isSome || !held i c s
    | .error _ => true
/-- The issuing path's line is fetched, or its instruction is decoded and executed. -/
def State.runCur (s : State) (c : Ctx) : Host.Outcome State Fault Refusal :=
  match s.fetched c with
  | .away | .bad => exec (.codeLineFetch s.cur) s
  | .word x => match decode x with
    | .ok i => exec i s
    | .error e => .next (s.takeTrap c.id (c.wordTrap x e))
/-- R255, R259: whether the issuing path's next issue is an exact trap: one of a cause other than SOFT and CSTW_PARTIAL, which come after
the effect of their instruction. -/
def State.exactNext (s : State) (c : Ctx) : Bool :=
  s.clear c && match s.runCur c with
    | .next t => ((t.wave c.id).map fun w => w.inHandler && w.record.type != Cause.soft.code && w.record.type != Cause.cstwPartial.code).getD false
    | _ => false
/-- The path that `cur` names goes on: a due trap is taken in the order of R259, its line is fetched, or its instruction is decoded and
executed. -/
def State.advanceCur (s : State) : Host.Outcome State Fault Refusal :=
  match s.issuer, s.wave s.cur.wave with
  | some c, some w =>
    match (if c.hand then none else w.excDue c.split) with
    | some t => .next (s.takeExc c w t)
    | none => if !c.hand && w.matrixDue.isSome && !s.exactNext c then exec (.matrixTrap c.id) s else s.runCur c
  | _, _ => .fault .noPath

/-! Candidates (R36, R106). -/

/-- A candidate for issue. -/
structure Cand where
  id     : WaveId
  split  : Nat
  second : Bool
  deriving DecidableEq, Repr
/-- The candidates of a wave, in the order of R36. -/
def Wave.cands (w : Wave) (id : WaveId) : List Cand :=
  if !w.runs then []
  else if w.inHandler then
    match w.hand with
    | some h => if h.path.wait.isNone then [⟨id, h.split, h.second⟩] else []
    | none => []
  else (List.range 4).flatMap fun k =>
    (if w.candidate k false false then [⟨id, k, false⟩] else []) ++ (if w.candidate k true false then [⟨id, k, true⟩] else [])
/-- R106: whether a candidate is ready. -/
def State.ready (s : State) (w : Wave) (x : Cand) : Bool :=
  let p := w.pathAt x.split x.second w.inHandler
  decide (p.readyAt ≤ s.clk w.core.die) && p.yieldAt.isNone &&
    (match ({ s with cur := ⟨x.id, x.split, x.second⟩ } : State).issuer with
    | some c => (!c.hand && ((w.excDue x.split).isSome || w.matrixDue.isSome)) || s.clear c
    | none => false)
/-- The issue that a candidate would make: none where no word that decodes stands at its PC. -/
def State.issueOf (s : State) (x : Cand) : Option Issue :=
  (({ s with cur := ⟨x.id, x.split, x.second⟩ } : State).issuer).bind fun c =>
    match s.fetched c with
    | .word w => match decode w with
      | .ok i => some (c.guard i).mark
      | .error _ => none
    | _ => none
/-- R106: the issues of a clock that a partition has made, a combined issue counting once (R27). -/
def Core.issueCount (k : Core) (part : Nat) : Nat := (k.issues.filter fun i => i.part == part && !i.joined).length
/-- Whether a path has issued in this clock (R81), its partition has issued twice (R106), or an issue of its slot in this clock is one
that it may not be combined with (R27). -/
def State.spent (s : State) (cid : CoreId) (part : Nat) (x : Cand) : Bool :=
  let k := s.core cid
  k.issues.any (fun i => i.path == ⟨x.id, x.split, x.second⟩) ||
    match s.issueOf x with
    | none => decide (2 ≤ k.issueCount part)
    | some m =>
      if k.issues.any m.related then (k.joins m).isNone else decide (2 ≤ k.issueCount part)
/-- Lists of numbers in lexicographic order. -/
def lexLe : List Nat → List Nat → Bool
  | [], _ => true
  | _ :: _, [] => false
  | x :: t, y :: u => decide (x < y) || (x == y && lexLe t u)
/-- R50, R106: the place of a candidate: overdue waves first, the longest overdue leading, then class, age, slot and R36. The rules say nothing
of packed waves of equal age in one slot: the model puts the lower position in the slot first (DESIGN CHOICE, log entry 96). -/
def State.rank (s : State) (w : Wave) (x : Cand) : List Nat :=
  let tail := [w.age, w.slot * 8 + w.pos, 2 * x.split + (if x.second then 1 else 0)]
  match w.overdue with
  | some t => [0, t] ++ tail
  | none => [1, s.waveCls x.id] ++ tail
/-- The partitions in which waves are resident: die, core, partition. -/
def State.parts (s : State) : List (Nat × Nat × Nat) :=
  sortBy (fun a b => lexLe [a.1, a.2.1, a.2.2] [b.1, b.2.1, b.2.2])
    (distinct ((s.waves.filter fun x => x.2.resident).map fun x => (x.2.core.die, x.2.core.core, x.2.part)))
/-- The candidate that a partition issues next in this clock: none once a later partition of the core has issued (R329). -/
def State.pick (s : State) (p : Nat × Nat × Nat) : Option Cand :=
  let cid : CoreId := ⟨p.1, p.2.1⟩
  let here := if (s.core cid).issues.any fun i => decide (p.2.2 < i.part) then [] else s.waves.filter fun x => x.2.resident && x.2.core == cid && x.2.part == p.2.2
  let ready := here.flatMap fun x => ((x.2.cands x.1).filter fun c => !s.spent cid p.2.2 c && s.ready x.2 c).map fun c => (s.rank x.2 c, c)
  ((sortBy (fun a b => lexLe a.1 b.1) ready).head?).map Prod.snd
/-- The next issue of this clock. -/
def State.nextIssue (s : State) : Option Cand := s.parts.findSome? s.pick

/-! What is due. -/

/-- What an event may change. A die's firmware digest and minimum version are left out: they change only where its staged image does. -/
def State.shown (s : State) : State := { s with dies := s.dies.map fun d => { d with digest := 0, minimum := 0 } }
/-- What an event does, if it does anything. -/
def tryEvent (i : Instr) (s : State) : Option State :=
  match exec i s with
  | .next t => if t.shown = s.shown then none else some t
  | _ => none
/-- What is due of a wave in this clock, before any issue. -/
def State.waveDue (s : State) (id : WaveId) (w : Wave) : Option Instr :=
  if let some n := w.lats.findIdx? fun f => decide (f.due ≤ s.clk w.core.die) then some (.fixedLatencyResultLands id n)
  else if !w.resident || w.dbg then none
  else if let some p := w.paths.find? fun p => p.2.2.1 == w.inHandler && (match p.2.2.2.yieldAt with | some t => decide (t + 8 ≤ s.clk w.core.die) | none => false) then
    some (.yieldExpiry ⟨id, p.1, p.2.1⟩)
  else if (List.range 4).any fun k => (w.waitsOf k).any fun x => (match x with | .sleep t => decide (t ≤ s.clk w.core.die) | _ => false) then
    some (.sleepExpiry ⟨id, 0, false⟩)
  else if let some k := (List.range 4).find? fun k => (w.waitsOf k).any fun x =>
      (match x with | .growth n _ _ => s.growGoes id n | _ => false) then
    some (.vregsGrowthMet ⟨id, k, false⟩)
  else if s.becomesOverdue id w then some (.overdue id)
  else if w.runs && w.hand.isNone && w.pending.isNone && w.mode == .running && w.nextPath.isNone then
    ((List.range 4).findSome? fun k => if (w.openTrap id k false).isSome then some (k, false)
      else if (w.openTrap id k true).isSome then some (k, true) else none).map fun p => .openFaultTrap ⟨id, p.1, p.2⟩
  else none
/-- R259, R262: a wave whose pending trap, or whose DEBUG trap, comes before anything else of it. -/
def Wave.pendingFirst (w : Wave) : Bool := w.runs && w.hand.isNone && w.mode == .running && (w.pending.isSome || w.dbgTrap)
/-- R259, R262: that trap is taken: a DEBUG trap at once. -/
def State.takeFirst (s : State) (id : WaveId) (w : Wave) : State :=
  if w.dbgTrap then (s.setWave id { w with dbgTrap := false }).takeTrap id (w.debugTrap id) else s.takePending id
/-- R232: a copy to which every member has contributed. -/
def State.copyDue (s : State) : Option Instr :=
  s.blocks.findSome? fun b => (b.2.copies.find? fun k =>
    !k.issued && !k.timedOut && !((s.wavesOf b.1.1 b.1.2).any fun w => decide (((s.wave w).map Wave.cpys).getD 0 < k.n))).map fun k =>
      .cpyIssue b.1.1 b.1.2 k.n
/-- What is due in this clock, before any issue. -/
def State.due (s : State) : Option (Host.Outcome State Fault Refusal) :=
  match s.waves.find? fun x => x.2.pendingFirst with
  | some x => some (.next (s.takeFirst x.1 x.2))
  | none => match s.waves.findSome? fun x => s.waveDue x.1 x.2 with
    | some i => some (exec i s)
    | none => s.copyDue.map fun i => exec i s

/-! Completions (log entry 1). -/

/-- The completions that an operation in flight may reach. R253: the lanes of an ATOM in flight, of whatever scope, come in an order that is a
free value (DESIGN CHOICE, log entry 2). -/
def Op.events (fresh : Nat) (o : Op) : List Instr :=
  match o.kind with
  | .open x => x.need.map fun l => .openFetchReturn o.id l none
  | .commit .. => [.commitCompletion o.id]
  | .abort .. => [.abortCompletion o.id]
  | .acquire .. => [.acquireCompletion o.id]
  | .strongLoad .. | .strongStore .. => [.strongAccessPerform o.id]
  | .atom _ accs _ _ _ _ => [.atomCompletion o.id ((freeOrder fresh (o.id + 1) accs).map LaneAcc.lane)]
  | .arrival .. => [.arrivalRegister o.id]
  | .cpy .. => [.transactionBytesLand o.id]
  | .bina .. => [.binaCompletion o.id]
  | .binr .. => [.binrReplay o.id, .binrCompletion o.id]
  | .matrix _ => []
  | .launch .. => [.launchAcceptance o.id]
  | .msgs .. => [.messageSent o.id]
  | .xcinv .. => [.xcinvCompletion o.id]
/-- R252, R253: an operation whose place among those of its kind is an order of tickets. -/
def Op.races (o : Op) : Bool := match o.kind with | .atom .. | .bina .. => true | _ => false
/-- The operations in flight in the order in which their completions are tried: ATOMs and BINAs in an order that is a free value (DESIGN
CHOICE, log entry 2). -/
def State.inFlight (s : State) : List Op :=
  let l := s.ops.filter fun o => !o.done
  let draw : Op → Nat := fun o => (Config.freeWord s.fresh (2 ^ 95 + o.id)).toNat
  (l.filter fun o => !o.races) ++ sortBy (fun a b => decide (draw a ≤ draw b)) (l.filter Op.races)
/-- The completions of the hearths. -/
def State.hearthEvents (s : State) : List Instr :=
  s.hearths.flatMap fun h =>
    [.hearthQuiescent h.1.1 h.1.2 0, .hearthQueueDispatch h.1.1 h.1.2, .mmaCompletion h.1.1 h.1.2, .mxldCompletion h.1.1 h.1.2,
      .mxstCompletion h.1.1 h.1.2 (2 ^ 1024 - 1), .mxzCompletion h.1.1 h.1.2]
/-- The completions of the copies, the network and the waves. -/
def State.coreEvents (s : State) : List Instr :=
  (s.cores.flatMap fun c => (distinct (c.2.updq.map Update.home)).map fun h => .deviceUpdateApply c.1 h) ++
    (s.blocks.flatMap fun b => b.2.copies.map fun k => .cpyCompletion b.1.1 b.1.2 k.n) ++
    (s.owned.map fun l => .engineLineRelease l.1) ++ (s.copies.map fun k => .transactionBytesLand k.id) ++
    s.waves.flatMap fun w =>
      (if w.2.ctxPark.isSome then [.contextPageFreed w.1] else []) ++
      (w.2.paths.filterMap fun p => match p.2.2.2.wait with | some (.regLine l) => some (.registerLineReturn w.1 l) | _ => none) ++
      (if w.2.evicted then [.waveReserveAgain w.1] else []) ++ (if w.2.lanes = 0 then [.waveEnds w.1] else [])
/-- R105: the carvings that a stuck launch may make: of empty cores first, then of those whose blocks may be pre-empted for it. -/
def State.recarves (s : State) (x : Waiting) : List Instr :=
  match s.grid x.g with
  | none => []
  | some g =>
    let cores : Nat × List Nat → List CoreId := fun p => onDie p.1 (coresAt g.rec_.cores p.2)
    let drains := (s.homeSets x).filter fun p => s.mayDrain x.g p.1 g.rec_ (cores p)
    let lower : Nat × List Nat → Bool := fun p => s.lowerOn x.g (cores p)
    (((s.carvable x).map fun p => (p.1, s.carveOrder x p)) ++ drains.filter lower ++ drains.filter fun p => !lower p).map fun p =>
      Instr.recarve x.g (onDie p.1 p.2)
/-- The events of launches and sessions. -/
def State.launchEvents (s : State) : List Instr :=
  (s.grids.flatMap fun g => [.launchDependencesMet g.1, .gridRetire g.1]) ++
    (s.waiting.flatMap fun x => match s.fits x with
      | some p => [if x.resume then .blockResume x.g x.gid p.1 p.2 else .blockAdmit x.g x.gid p.1 p.2]
      | none => []) ++ (s.stuck.flatMap s.recarves) ++
    (s.groups.flatMap fun k => [.timeSliceExpiry k.1.1 k.1.2, .preemption k.1.1 k.1.2]) ++
    (s.sessions.filterMap fun x =>
      if (s.heldReplies.any fun r => r.session == x.1) || x.2.closing.isSome then some (.replyRingSpace x.1) else none) ++
    (List.range 4).flatMap fun d => [.powerChangeEffect d, .fwImageSwitch d]
/-- The first completion that changes anything. -/
def State.completes (s : State) : Option State :=
  (s.inFlight.findSome? fun o => (o.events s.fresh).findSome? fun i => tryEvent i s).or
    ((s.coreEvents.findSome? fun i => tryEvent i s).or
      ((s.hearthEvents.findSome? fun i => tryEvent i s).or (s.launchEvents.findSome? fun i => tryEvent i s)))

/-! The end of a clock. -/

/-- The limits that have run at the end of this clock (R48, R233, R270). -/
def State.limits (s : State) : List Instr :=
  ((s.ops.filter fun o => !o.done && o.joined.isSome).map fun o => .waitTimeout ⟨o.wave, o.split, o.second⟩) ++ (s.waves.flatMap fun x =>
    (if x.2.resident && !x.2.dbg then ((List.range 4).filter fun k => (x.2.waitsOf k).any fun w =>
      (s.timeoutResult x.1 w).isSome || (s.openLimit x.1 w).isSome).map fun k => .waitTimeout ⟨x.1, k, false⟩ else []) ++
    (match x.2.ctxPark with | some t => if !x.2.dbg && t + 2 ^ 31 ≤ s.clk x.2.core.die then [.contextPageTimeout x.1] else [] | none => [])) ++
  s.blocks.flatMap fun b => (b.2.copies.filter fun k => !k.issued && !k.timedOut && decide (k.limit ≤ s.clk b.2.die)).map fun k =>
    .cpyCollectionTimeout b.1.1 b.1.2 k.n
/-- R50: since when each wave has had a ready candidate without an issue. -/
def State.noteReady (s : State) : State :=
  let since : WaveId → Wave → Wave := fun id w =>
    if w.resident && (w.cands id).any (s.ready w) then { w with readySince := some (w.readySince.getD (s.clk w.core.die)) } else { w with readySince := none }
  { s with waves := s.waves.map fun x => (x.1, since x.1 x.2) }
/-- R203, R273: the windows that end in this clock. -/
def State.windowsEnd (s : State) : State :=
  let cores := s.cores.flatMap fun c => ((List.range 6).filter fun k => (c.2.exc.getD k {}).ended (s.clk c.1.die)).map fun k => (c.1, k)
  let s := cores.foldl (fun s x => follow (exec (.excWindowEnd x.1 x.2) s) s) s
  let dies := (List.range 4).flatMap fun d => ((s.die d).ce.filter fun x => x.2.ended (s.clk d)).map fun x => (d, x.1)
  dies.foldl (fun s x => follow (exec (.ceWindowEnd x.1 x.2) s) s) s
/-- A nominal clock ends. On each die whose own clock ends with it, or has ended for good (R22, R286), events are counted and MTS writes apply (R203, R336), and
the next clock begins. -/
def State.tick (s : State) : State :=
  let ends : CoreId → Bool := fun c => (s.die c.die).ends
  let s := ((s.cores.map Prod.fst).filter ends).foldl State.endClock s.noteReady
  let idle : Core → Core := fun k => { k with issues := [] }
  ({ s with now := s.now + 1, dies := s.dies.map Die.tick
            cores := s.cores.map fun c => (c.1, if ends c.1 then idle c.2 else c.2) } : State).windowsEnd

/-- A step without an input: what is due; else the next issue; else a completion; else a limit that has run; else the clock ends. -/
def State.stepQuiet (s : State) : Host.Outcome State Fault Refusal :=
  match s.due with
  | some o => o
  | none => match s.nextIssue with
    | some x => ({ s with cur := ⟨x.id, x.split, x.second⟩ } : State).advanceCur
    | none => match (if s.auto then s.completes else none) with
      | some t => .next t
      | none => match s.limits.findSome? fun i => tryEvent i s with
        | some t => .next t
        | none => .next s.tick
/-- What may stand in `State.inputs`: an event that a word in memory does not name. -/
def isInput (i : Instr) : Bool := i.isEvent && !(match i with | .unassignedOpcode .. => true | _ => false)
/-- The events that come after the issues of their clock: those that the clock's synchronous faults come before (R263), and limits, which a
condition met in the clock comes before (R48, R233, R270). -/
def isLate : Instr → Bool
  | .debugHalt .. | .preemption .. | .timeSliceExpiry .. | .dieReset .. | .coreRetire .. | .power _ _ .idle
  | .waitTimeout .. | .cpyCollectionTimeout .. | .contextPageTimeout .. => true
  | _ => false
/-- Whether an input comes after the issues of its clock. -/
def Input.late : Input → Bool
  | .event i => isLate i
  | _ => false
/-- What an input does: an event of the table that no word of memory names, a firmware wave at its mailbox (R13), or the management call that
sets the UDP port (R283). -/
def State.input (s : State) : Input → Host.Outcome State Fault Refusal
  | .event i => if isInput i then exec i s else .next s
  | .fwTake die core => .next (s.fwTake die core)
  | .fwSend die core slot pos hand box words => .next (s.fwSend die core slot pos hand box words)
  | .udpPort port => .next { s with udpPort := port.toNat }
/-- One step: an input whose clock has come comes first, but for those that come after the issues of the clock. -/
def State.stepOnce (s : State) : Host.Outcome State Fault Refusal :=
  match s.inputs with
  | (t, i) :: rest =>
    if decide (s.now < t) || (i.late && (s.due.isSome || s.nextIssue.isSome)) then s.stepQuiet
    else ({ s with inputs := rest } : State).input i
  | [] => s.stepQuiet

/-! The host's probe. -/

/-- The launch record of the probe: one block of one wave of eight lanes, with every register. -/
def probeRecord : Record :=
  { entry := 0, handler := 0x80, ctxBase := 0, ctxLen := 64, gx := 1, gy := 1, gz := 1, threads := 8, width := 8, vregs := 256, sregs := 128
    rcache := 6, pantry := 3, cls := 0, cores := 1, group := 1, share := 1, repeatable := false, check := false, ftz32 := false
    ftz16 := false, arg := 0, ranges := [], bars := [] }
/-- A machine with that one wave just admitted on core 0 of D0, and in its fetch buffers the code line with a word in slot 0. -/
def State.probeWave (s : State) (nbits w : Nat) : State :=
  let line := bytesOfWord (BitVec.ofNat 96 (w % 2 ^ nbits)) ++ List.replicate 116 0
  let wave : Wave := probeRecord.newWave ⟨0, 0⟩ 0 0 0 0 (s.clk 0)
  let ready : Split → Split := fun x => { x with p1 := { x.p1 with readyAt := s.clk 0 } }
  { s with
    inputs := []
    grids := [(0, { session := 0, seq := 0, rec_ := probeRecord, depth := 0, cls := 0, parent := none, tag := 0, deps := [], met := some s.now
                    admitted := 1 })]
    groups := [((0, 0), { die := 0, base := 0, since := s.now })]
    blocks := [((0, 0), { die := 0, base := 0, ncores := 1, shares := [{}] })]
    waves := [(⟨0, 0, 0⟩, wave.modSplit 0 ready)]
    cores := [(⟨0, 0⟩, { fetch := [((0, 0), (line, false))] })] }

end Sys2Proof.Machine
end

