-- ==== Sys2Proof/Machine/Step.lean ====
section
/-! DEFINITION. One step of the machine, and the host's probe of it. -/

namespace Sys2Proof.Machine

/-- One step (`State.stepOnce`). -/
def step (s : State) : Host.Outcome State Fault Refusal := s.stepOnce

/-- The host's probe: one wave that has just been admitted, whose code line, with the word in its first slot, stands in the fetch
buffers of its core. It stands for a load from outside the machine (log entry 12). -/
def State.withFetchWord (s : State) (nbits w : Nat) : State := s.probeWave nbits w

end Sys2Proof.Machine
end

