-- ==== Sys2Proof/Safety.lean ====
section
/-! DEFINITION. What counts as a safe run: the machine never stops with a fault, and its state keeps the forms that the model relies on. -/

namespace Sys2Proof

/-- A step that does not stop. -/
def Goes (s : Machine.State) : Prop := ∃ t, Machine.step s = .next t

/-- The memory is in its canonical form. -/
def MemOk (s : Machine.State) : Prop := Machine.Memory.wf s.mem = true

end Sys2Proof
end

