-- ==== Sys2Proof/Certificates/Slice0/Obligations.lean ====
section
/-! DEFINITION. The statements that the proofs of this model are about. -/

/-! What the statements say in common. -/

namespace Sys2Proof.Claims

open Sys2Proof.Machine

/-- Where `i` passes the checks that precede its meaning, in context `c`, `exec` answers the state that `eff` makes of the state at
issue, with the issue marked and the path moved on to the next instruction. -/
def Does (i : Instr) (eff : Ctx → State → State) : Prop :=
  ∀ s c, s.clears i = some c → exec i s = .next ((eff c (s.beginIssue c.id)).issued i c (nextPc c.pc))

/-- `i` writes, `lat` clocks after its issue, `n` registers from vector `d` up in each selected lane, with the value `val`; it does
nothing else but go on. -/
def Lanewise (i : Instr) (d : BitVec 8) (n lat : Nat) (val : Ctx → Nat → Nat) : Prop :=
  Does i fun c s => c.fix s lat (vecWrites d.toNat n (c.lanes.map fun l => (l, val c l)))

/-- As `Lanewise`, with exception events counted by lane. -/
def LanewiseEv (i : Instr) (d : BitVec 8) (n lat : Nat) (val : Ctx → Nat → Nat × Events) : Prop :=
  Does i fun c s =>
    c.note (c.fix s lat (vecWrites d.toNat n (c.lanes.map fun l => (l, (val c l).1)))) (c.lanes.map fun l => (l, (val c l).2))

/-- `i` acts once where its guard selects a lane: it writes `n` registers from scalar `d` up after 2 clocks, and counts its events in
the lowest selected lane; where its guard selects none it does nothing but go on. -/
def Once (i : Instr) (d : BitVec 7) (n lat : Nat) (val : Ctx → Nat × Events) : Prop :=
  Does i fun c s => if c.any then c.noteOnce (c.fix s lat (scaWrites d.toNat n (val c).1)) (val c).2 else s

/-- An integer operand of a lane, as a signed or unsigned value of the type. -/
def int (c : Ctx) (o : Opnd) (t : Ty) (l : Nat) : Int := readInt t (c.rd o t.regs l (immInt t))

/-- The bits of an operand of `n` registers in a lane; an immediate is zero-extended. -/
def raw (c : Ctx) (o : Opnd) (n l : Nat) : Nat := c.rd o n l immZ

/-- The bits of a scalar operand of an instruction that acts once. -/
def sraw (c : Ctx) (o : Opnd) (n : Nat) : Nat := c.rd1 o n immZ

/-- An integer operand of an instruction that acts once. -/
def sint (c : Ctx) (o : Opnd) (t : Ty) : Int := readInt t (c.rd1 o t.regs (immInt t))

end Sys2Proof.Claims

open Sys2Proof Sys2Proof.Machine

/-! Integer and logic instructions. -/

/-- R321: IADD, ISUB, IMUL, IMULHI, IMIN, IMAX and IABS write, in every selected lane and after 4 clocks, the exact result wrapped or
saturated to the type. -/
def Sys2Proof.Claims.IntegerTwoSource : Prop :=
  ∀ (h : Hdr) (d : BitVec 8) (a b : Opnd) (t : Ty) (sat : Bool),
    Claims.Lanewise (.iadd h d a b t sat) d t.regs 4 (fun c l => intFin t sat (Claims.int c a t l + Claims.int c b t l)) ∧
    Claims.Lanewise (.isub h d a b t sat) d t.regs 4 (fun c l => intFin t sat (Claims.int c a t l - Claims.int c b t l)) ∧
    Claims.Lanewise (.imul h d a b t sat) d t.regs 4 (fun c l => intFin t sat (Claims.int c a t l * Claims.int c b t l)) ∧
    Claims.Lanewise (.imulhi h d a b t) d t.regs 4
      (fun c l => writeInt t (Claims.int c a t l * Claims.int c b t l / (2 ^ t.bits : Nat))) ∧
    Claims.Lanewise (.imin h d a b t) d t.regs 4 (fun c l => writeInt t (min (Claims.int c a t l) (Claims.int c b t l))) ∧
    Claims.Lanewise (.imax h d a b t) d t.regs 4 (fun c l => writeInt t (max (Claims.int c a t l) (Claims.int c b t l))) ∧
    Claims.Lanewise (.iabs h d a t sat) d t.regs 4 (fun c l => intFin t sat (Claims.int c a t l).natAbs)

/-- R322, R324: IMAD, ISAD and IDOT4 write the exact three-source result, wrapped or saturated. -/
def Sys2Proof.Claims.IntegerThreeSource : Prop :=
  ∀ (h : Hdr) (d : BitVec 8) (a b x : Opnd) (t : Ty) (sat : Bool) (sg : BitVec 2),
    Claims.Lanewise (.imad h d a b x t sat) d t.regs 4
      (fun c l => intFin t sat (Claims.int c a t l * Claims.int c b t l + Claims.int c x t l)) ∧
    Claims.Lanewise (.isad h d a b x t sat) d t.regs 4
      (fun c l => intFin t sat ((Claims.int c a t l - Claims.int c b t l).natAbs + Claims.int c x t l)) ∧
    Claims.Lanewise (.idot4 h d a b x t sat sg) d 1 4
      (fun c l => intFin t sat (dot4 sg (Claims.raw c a 1 l) (Claims.raw c b 1 l) (readInt t (Claims.raw c x 1 l))))

/-- R321, R322, R324: the integer instructions of two and of three sources. -/
def Obligations.IntegerInstructions : Prop := Claims.IntegerTwoSource ∧ Claims.IntegerThreeSource

/-- R333, R353, R359, R361, R296, R297: the bit operations of two and three sources. -/
def Sys2Proof.Claims.ShiftsAndFields : Prop :=
  ∀ (h : Hdr) (d : BitVec 8) (a b x : Opnd) (t : Ty) (right : Bool) (tt : BitVec 8),
    Claims.Lanewise (.lop3 h d a b x t tt) d t.regs 4
      (fun c l => lop3Val t.bits tt (Claims.raw c a t.regs l) (Claims.raw c b t.regs l) (Claims.raw c x t.regs l)) ∧
    Claims.Lanewise (.shl h d a b t) d t.regs 4 (fun c l => shlVal t.bits (Claims.raw c a t.regs l) (Claims.raw c b 1 l)) ∧
    Claims.Lanewise (.shr h d a b t) d t.regs 4 (fun c l => shrVal t.bits (Claims.raw c a t.regs l) (Claims.raw c b 1 l)) ∧
    Claims.Lanewise (.shra h d a b t) d t.regs 4 (fun c l => shraVal t (Claims.raw c a t.regs l) (Claims.raw c b 1 l)) ∧
    Claims.Lanewise (.rot h d a b t right) d t.regs 4
      (fun c l => rotVal t.bits (Claims.raw c a t.regs l) (Claims.raw c b 1 l) right) ∧
    Claims.Lanewise (.shf h d a b x right) d 1 4
      (fun c l => shfVal (Claims.raw c a 1 l) (Claims.raw c b 1 l) (Claims.raw c x 1 l) right) ∧
    Claims.Lanewise (.bfe h d a b t) d t.regs 4 (fun c l => bfeVal t (Claims.raw c a t.regs l) (Claims.raw c b 1 l)) ∧
    Claims.Lanewise (.bfi h d a b t) d t.regs 4
      (fun c l => bfiVal t.bits (Claims.raw c (.v d) t.regs l) (Claims.raw c a t.regs l) (Claims.raw c b 1 l))

/-- R345, R300, R346, R332, R337, R338, R357: counts, reversals, byte permutation, address arithmetic, moves and selection. -/
def Sys2Proof.Claims.MovesAndCounts : Prop :=
  ∀ (h : Hdr) (d : BitVec 8) (a b : Opnd) (t : Ty) (n : BitVec 16) (sx neg : Bool) (sh : BitVec 5) (imm : BitVec 32) (p : BitVec 3),
    Claims.Lanewise (.popc h d a t) d 1 4 (fun c l => popcVal t.bits (Claims.raw c a t.regs l)) ∧
    Claims.Lanewise (.clz h d a t) d 1 4 (fun c l => clzVal t.bits (Claims.raw c a t.regs l)) ∧
    Claims.Lanewise (.brev h d a t) d t.regs 4 (fun c l => brevVal t.bits (Claims.raw c a t.regs l)) ∧
    Claims.Lanewise (.prmt h d a b n) d 1 4 (fun c l => prmtVal (Claims.raw c a 1 l) (Claims.raw c b 1 l) n) ∧
    Claims.Lanewise (.lea h d a b t sx sh) d t.regs 4 (fun c l => leaVal t (Claims.raw c a t.regs l) (Claims.raw c b 1 l) sx sh) ∧
    Claims.Lanewise (.mov h d a t) d t.regs 4 (fun c l => c.rd a t.regs l immS) ∧
    Claims.Lanewise (.movi h d imm) d 1 4 (fun _ _ => imm.toNat) ∧
    Claims.Lanewise (.sel h d a b t p neg) d t.regs 4 (fun c l =>
      if (c.w.predFor c.hand p.toNat).getLsbD l != neg then c.rd a t.regs l immS else c.rd b t.regs l immS)

/-- The bit instructions, counts, moves and selection: `Claims.ShiftsAndFields` (R333, R353, R359, R361) and `Claims.MovesAndCounts` (R300, R332, R337,
R338, R345, R346, R357). -/
def Obligations.BitInstructions : Prop := Claims.ShiftsAndFields ∧ Claims.MovesAndCounts

/-- R358, R344, R375, R311: SETP, PLOP, VOTE and ELECT write predicates or a scalar after 4 clocks. -/
def Sys2Proof.Claims.PredicateWriters : Prop :=
  ∀ (h : Hdr) (d p q r : BitVec 3) (a b dst : Opnd) (t : Ty) (k : Cond) (tt : BitVec 8) (m : VoteMode) (idx : Option (BitVec 7)),
    Claims.Does (.setp h d a b t k) (fun c s =>
      let val := fun l => setpVal t k c.grid.rec_.ftz32 (c.rd a t.regs l (if t.isInt then immInt t else immFlt t))
        (c.rd b t.regs l (if t.isInt then immInt t else immFlt t))
      c.note (c.fix s 4 (predWrites d.toNat (c.lanes.map fun l => (l, (val l).1)))) (c.lanes.map fun l => (l, (val l).2))) ∧
    Claims.Does (.plop h d p q r tt) (fun c s => c.fix s 4 (predWrites d.toNat (c.lanes.map fun l => (l,
      plopVal tt (Claims.raw c (.p p) 1 l) (Claims.raw c (.p q) 1 l) (Claims.raw c (.p r) 1 l))))) ∧
    Claims.Does (.vote h m dst p) (fun c s =>
      let yes := c.w.predFor c.hand p.toNat &&& c.sel
      if c.any then c.fix s 4 (match dst with
        | .p x => predWrites x.toNat (c.lanes.map fun l => (l, voteVal m c.sel yes))
        | _ => opWrites dst (if c.w.width = 64 then 2 else 1) c.lanes yes.toNat) else s) ∧
    Claims.Does (.elect h d idx) (fun c s =>
      let e := (lowest c.sel).getD 0
      if c.any then c.fix s 4 (predWrites d.toNat (c.lanes.map fun l => (l, l == e)) ++
        (match idx with | some a => scaWrites a.toNat 1 e | none => [])) else s)

/-- R360, R349, R380, R381, R200: SHFL, READLANE, WRED and WSCAN read other lanes' registers. -/
def Sys2Proof.Claims.LaneExchange : Prop :=
  ∀ (h : Hdr) (d a : BitVec 8) (sd : BitVec 7) (b dst : Opnd) (t : Ty) (m : ShflMode) (pd : BitVec 3) (rnd : Rnd) (op : AOp) (x : Bool),
    Claims.Does (.shfl h d a b t m pd) (fun c s =>
      let src := fun l => shflFrom c.w.width c.sel m l (Claims.raw c b 1 l)
      c.fix s 6 (vecWrites d.toNat t.regs (c.lanes.map fun l => (l, Claims.raw c (.v a) t.regs ((src l).getD l))) ++
        predWrites pd.toNat (c.lanes.map fun l => (l, (src l).isSome)))) ∧
    Claims.Once (.readlane h sd a b t) sd t.regs 6
      (fun c => (Claims.raw c (.v a) t.regs (Claims.sraw c b 1 % c.w.width), 0)) ∧
    Claims.Does (.wred h dst a t rnd op) (fun c s =>
      let r := treeNode (combine t rnd op) (c.present a t.regs) (Nat.log2 c.w.width) 0
      if c.any then c.noteOnce (c.fix s 12 (opWrites dst t.regs c.lanes (r.1.getD (identOf t op)))) r.2 else s) ∧
    Claims.Does (.wscan h d a t rnd op x) (fun c s =>
      let r := fun l => scanNodes (combine t rnd op) (c.present a t.regs) 6 0 (if x then l else l + 1) (none, 0)
      c.noteOnce (c.fix s 12 (vecWrites d.toNat t.regs (c.lanes.map fun l => (l, (r l).1.getD (identOf t op)))))
        ((c.lanes.map fun l => (r l).2).foldl (· ||| ·) 0))

/-- R311, R344, R358, R375 and R349, R360, R380, R381: the instructions that write predicates, and those that read other lanes. -/
def Obligations.LaneInstructions : Prop := Claims.PredicateWriters ∧ Claims.LaneExchange

/-! Floating point and conversion. -/

/-- R310: FADD, FSUB, FMUL, FFMA and their FP64 forms. -/
def Sys2Proof.Claims.FloatArithmetic : Prop :=
  ∀ (h : Hdr) (d : BitVec 8) (a b x : Opnd) (r : Rnd) (na nb nx : Bool),
    Claims.LanewiseEv (.fadd h d a b r na nb) d 1 4
      (fun c l => fAdd fp32 r c.grid.rec_.ftz32 (c.flt a .f32 na l) (c.flt b .f32 nb l)) ∧
    Claims.LanewiseEv (.fsub h d a b r na nb) d 1 4
      (fun c l => fAdd fp32 r c.grid.rec_.ftz32 (c.flt a .f32 na l) (c.flt b .f32 (!nb) l)) ∧
    Claims.LanewiseEv (.fmul h d a b r na nb) d 1 4
      (fun c l => fMul fp32 r c.grid.rec_.ftz32 (c.flt a .f32 na l) (c.flt b .f32 nb l)) ∧
    Claims.LanewiseEv (.ffma h d a b x r na nb nx) d 1 4
      (fun c l => fFma fp32 r c.grid.rec_.ftz32 (c.flt a .f32 na l) (c.flt b .f32 nb l) (c.flt x .f32 nx l)) ∧
    Claims.LanewiseEv (.dadd h d a b r na nb) d 2 8 (fun c l => fAdd fp64 r false (c.flt a .f64 na l) (c.flt b .f64 nb l)) ∧
    Claims.LanewiseEv (.dmul h d a b r na nb) d 2 8 (fun c l => fMul fp64 r false (c.flt a .f64 na l) (c.flt b .f64 nb l)) ∧
    Claims.LanewiseEv (.dfma h d a b x r na nb nx) d 2 8
      (fun c l => fFma fp64 r false (c.flt a .f64 na l) (c.flt b .f64 nb l) (c.flt x .f64 nx l))

/-- R313, R315 to R318: the one-source functions of FP32, minimum and maximum, scaling, rounding and classes. -/
def Sys2Proof.Claims.FloatFunctions : Prop :=
  ∀ (h : Hdr) (d : BitVec 8) (a b : Opnd) (r : Rnd) (t : Ty),
    Claims.LanewiseEv (.fmin h d a b) d 1 4 (fun c l => fMinMax fp32 false (c.bits32 a l) (c.bits32 b l)) ∧
    Claims.LanewiseEv (.fmax h d a b) d 1 4 (fun c l => fMinMax fp32 true (c.bits32 a l) (c.bits32 b l)) ∧
    Claims.LanewiseEv (.frcp h d a r) d 1 12 (fun c l => fRcp fp32 r c.grid.rec_.ftz32 (c.flt a .f32 false l)) ∧
    Claims.LanewiseEv (.frsq h d a) d 1 12 (fun c l => fRsq fp32 c.grid.rec_.ftz32 (c.flt a .f32 false l)) ∧
    Claims.LanewiseEv (.fsqrt h d a r) d 1 12 (fun c l => fSqrt fp32 r c.grid.rec_.ftz32 (c.flt a .f32 false l)) ∧
    Claims.LanewiseEv (.fexp2 h d a) d 1 12 (fun c l => fExp2 fp32 c.grid.rec_.ftz32 (c.flt a .f32 false l)) ∧
    Claims.LanewiseEv (.flog2 h d a) d 1 12 (fun c l => fLog2 fp32 c.grid.rec_.ftz32 (c.flt a .f32 false l)) ∧
    Claims.LanewiseEv (.fsin h d a) d 1 12 (fun c l => fSinCos fp32 false c.grid.rec_.ftz32 (c.flt a .f32 false l)) ∧
    Claims.LanewiseEv (.fcos h d a) d 1 12 (fun c l => fSinCos fp32 true c.grid.rec_.ftz32 (c.flt a .f32 false l)) ∧
    Claims.LanewiseEv (.fscale h d a b r) d 1 4
      (fun c l => fScale fp32 r c.grid.rec_.ftz32 (c.flt a .f32 false l) (Claims.int c b .i32 l)) ∧
    Claims.LanewiseEv (.frnd h d a r) d 1 4 (fun c l => fRnd fp32 r (c.flt a .f32 false l)) ∧
    Claims.Lanewise (.fclass h d a t) d 1 4 (fun c l => fClass (tyFmt t) (c.rd a t.regs l (immFlt t)))

/-- R310, R313, R315 to R318: FP32 and FP64. -/
def Obligations.FloatInstructions : Prop := Claims.FloatArithmetic ∧ Claims.FloatFunctions

/-- R314, R319: the dot product of halves, and the packed operations, whose two elements count their events apart. -/
def Sys2Proof.Claims.HalfArithmetic : Prop :=
  ∀ (h : Hdr) (d : BitVec 8) (a b x : Opnd) (t : Ty) (r : Rnd) (na nb nx : Bool) (op : H2Op),
    Claims.LanewiseEv (.fdot2 h d a b x t r na nb nx) d 1 4 (fun c l => fDot2 fp32 r c.grid.rec_.ftz32
      (c.half a t 0 na l) (c.half b t 0 nb l) (c.half a t 1 na l) (c.half b t 1 nb l) (c.flt x .f32 nx l)) ∧
    (∀ (i : Instr) (f : Ctx → Nat → Nat → Nat × Events),
      (i = .hadd2 h d a b t r na nb op ∧ f = (fun c j l => match op with
        | .add => fAdd (tyFmt t) r (c.grid.rec_.ftz t) (c.half a t j na l) (c.half b t j nb l)
        | .min => fMinMax (tyFmt t) false (c.halfBits a t j na l) (c.halfBits b t j nb l)
        | .max => fMinMax (tyFmt t) true (c.halfBits a t j na l) (c.halfBits b t j nb l))) ∨
      (i = .hmul2 h d a b t r na nb ∧
        f = (fun c j l => fMul (tyFmt t) r (c.grid.rec_.ftz t) (c.half a t j na l) (c.half b t j nb l))) ∨
      (i = .hfma2 h d a b x t r na nb nx ∧
        f = (fun c j l => fFma (tyFmt t) r (c.grid.rec_.ftz t) (c.half a t j na l) (c.half b t j nb l) (c.half x t j nx l))) →
      Claims.Does i fun c s =>
        c.note (c.fix s 4 (vecWrites d.toNat 1 (c.lanes.map fun l => (l, (f c 0 l).1 + 65536 * (f c 1 l).1))))
          (c.lanes.flatMap fun l => [(l, (f c 0 l).2), (l, (f c 1 l).2)]))

/-- R306, R307, R347, R348: CVT, QPACK and QUNPACK. -/
def Sys2Proof.Claims.Conversions : Prop :=
  ∀ (h : Hdr) (d va : BitVec 8) (a b : Opnd) (dt st : Ty) (r : Rnd) (sat : Bool),
    Claims.LanewiseEv (.cvt h d a dt st r sat) d dt.regs (if dt = .f64 ∨ st = .f64 then 8 else 4)
      (fun c l => cvtElem dt st r sat (c.grid.rec_.ftz st) (c.grid.rec_.ftz dt) (Claims.raw c a st.regs l)) ∧
    Claims.LanewiseEv (.qpack h d va b st) d 1 4 (fun c l => (List.range 8).foldl (fun acc j =>
      let q := q4Pack (Claims.raw c b 1 l % 256) ((tyFmt st).val ((tyFmt st).flushIn (c.grid.rec_.ftz st) (c.elem va st j l)))
      (acc.1 + 16 ^ j * q.1, acc.2 ||| q.2)) (0, 0)) ∧
    Claims.Does (.qunpack h d a b .f32) (fun c s => c.fix s 4 ((List.range 8).map fun j =>
      (.v (d.toNat + j), c.lanes.map fun l =>
        (l, BitVec.ofNat 32 (qunpackVal .f32 (Claims.raw c b 1 l % 256) (Claims.raw c a 1 l / 16 ^ j % 16)))))) ∧
    Claims.Does (.qunpack h d a b .bf16) (fun c s => c.fix s 4 ((List.range 4).map fun j =>
      (.v (d.toNat + j), c.lanes.map fun l =>
        (l, BitVec.ofNat 32 (qunpackVal .bf16 (Claims.raw c b 1 l % 256) (Claims.raw c a 1 l / 16 ^ (2 * j) % 16) +
          65536 * qunpackVal .bf16 (Claims.raw c b 1 l % 256) (Claims.raw c a 1 l / 16 ^ (2 * j + 1) % 16))))))

/-- R306, R307, R314, R319, R347, R348: halves, conversions and Q4. -/
def Obligations.HalvesAndConversions : Prop := Claims.HalfArithmetic ∧ Claims.Conversions

/-! The scalar class. -/

/-- R355, R362, R364 to R368: the scalar class acts once and its results land after 2 clocks. -/
def Obligations.ScalarClass : Prop :=
  ∀ (h : Hdr) (d a x y : BitVec 7) (b o : Opnd) (t st : Ty) (tt : BitVec 8) (sx sat neg : Bool) (sh : BitVec 5) (p : BitVec 3) (k : Cond),
    Claims.Once (.sadd h d a b t) d t.regs 2 (fun c => (writeInt t (Claims.sint c (.s a) t + Claims.sint c b t), 0)) ∧
    Claims.Once (.ssub h d a b t) d t.regs 2 (fun c => (writeInt t (Claims.sint c (.s a) t - Claims.sint c b t), 0)) ∧
    Claims.Once (.smul h d a b t) d t.regs 2 (fun c => (writeInt t (Claims.sint c (.s a) t * Claims.sint c b t), 0)) ∧
    Claims.Once (.smin h d a b t) d t.regs 2 (fun c => (writeInt t (min (Claims.sint c (.s a) t) (Claims.sint c b t)), 0)) ∧
    Claims.Once (.smax h d a b t) d t.regs 2 (fun c => (writeInt t (max (Claims.sint c (.s a) t) (Claims.sint c b t)), 0)) ∧
    Claims.Once (.slop3 h d a x y t tt) d t.regs 2
      (fun c => (lop3Val t.bits tt (Claims.sraw c (.s a) t.regs) (Claims.sraw c (.s x) t.regs) (Claims.sraw c (.s y) t.regs), 0)) ∧
    Claims.Once (.sshl h d a b t) d t.regs 2 (fun c => (shlVal t.bits (Claims.sraw c (.s a) t.regs) (Claims.sraw c b 1), 0)) ∧
    Claims.Once (.sshr h d a b t) d t.regs 2 (fun c => (if t.signed then shraVal t (Claims.sraw c (.s a) t.regs) (Claims.sraw c b 1)
      else shrVal t.bits (Claims.sraw c (.s a) t.regs) (Claims.sraw c b 1), 0)) ∧
    Claims.Once (.slea h d a x t sx sh) d t.regs 2
      (fun c => (leaVal t (Claims.sraw c (.s a) t.regs) (Claims.sraw c (.s x) 1) sx sh, 0)) ∧
    Claims.Once (.smov h d o t) d t.regs 2 (fun c => (c.rd1 o t.regs immS, 0)) ∧
    Claims.Once (.scvt h d a t st sat) d t.regs 2
      (fun c => cvtElem t st .rn sat false false (Claims.sraw c (.s a) st.regs)) ∧
    Claims.Once (.ssel h d a b t p neg) d t.regs 2 (fun c =>
      (if (c.w.predFor c.hand p.toNat).getLsbD ((lowest c.sel).getD 0) != neg then c.rd1 (.s a) t.regs immS
        else c.rd1 b t.regs immS, 0)) ∧
    Claims.Does (.ssetp h p a b t k) (fun c s =>
      let imm := if t.isInt then immInt t else immFlt t
      let r := setpVal t k c.grid.rec_.ftz32 (c.rd1 (.s a) t.regs imm) (c.rd1 b t.regs imm)
      if c.any then c.noteOnce (c.fix s 2 (predWrites p.toNat (c.lanes.map fun l => (l, r.1)))) r.2 else s)

namespace Sys2Proof.Claims

open Sys2Proof.Machine

/-- `i` takes an exact trap of the issuing path in context `c`: a cause, a sub-code, a field, a lane mask and an address (R255). -/
def Traps (i : Instr) (s : State) (c : Ctx) (cause : Cause) (sub : Nat) (fld : Fld) (mask : Lanes) (addr : DWord) : Prop :=
  exec i s = .next (s.takeTrap c.id { c.exact cause sub fld mask addr with win := winOf i })

/-- `i` is a uniform branch to `target`, with the effect `eff` where it is taken: taken where the guard holds in every active lane, not
taken where it holds in none, ILLEGAL with OPERAND_RANGE and the taken lanes where it holds in some; a target that is no PC of an
instruction traps MISALIGN. -/
def Jumps (i : Instr) (target : Ctx → PC) (eff : Ctx → State → State) : Prop :=
  ∀ s c, s.clears i = some c →
    (c.sel = c.mask → pcOk (target c) = true → exec i s = .next ((eff c (s.beginIssue c.id)).issued i c (target c))) ∧
    (c.sel = c.mask → pcOk (target c) = false → Traps i s c .misalign 0 .none c.mask (target c)) ∧
    (c.sel ≠ c.mask → c.sel = 0 → exec i s = .next ((s.beginIssue c.id).issued i c (nextPc c.pc))) ∧
    (c.sel ≠ c.mask → c.sel ≠ 0 → Traps i s c .illegal 9 .none c.sel 0)

/-- A divergent branch: where it does not diverge. -/
def Diverges (i : Instr) (disp : BitVec 30) : Prop :=
  ∀ s c, s.clears i = some c →
    (c.sel = 0 → exec i s = .next ((s.beginIssue c.id).issued i c (nextPc c.pc))) ∧
    (c.sel ≠ 0 → pcOk (dispPc c.pc disp) = false → Traps i s c .misalign 0 .none c.mask (dispPc c.pc disp)) ∧
    (c.sel ≠ 0 → c.sel = c.mask → pcOk (dispPc c.pc disp) = true →
      exec i s = .next ((s.beginIssue c.id).issued i c (dispPc c.pc disp)))

/-- The join entries that hold the lanes of a split: its own and every outer one (R29). -/
def outerJoins (w : Wave) : Nat → Option Nat → List Nat
  | 0, _ => []
  | _, none => []
  | n + 1, some j => j :: outerJoins w n (w.joins.getD j {}).outer

end Sys2Proof.Claims

/-! Control. -/

/-- R342, R384, R299, R301, R302, R352: NOP and YIELD go on; BRA, BRX, CALL and RET are uniform branches, and CALL writes the PC of the
next instruction to its pair after 2 clocks. -/
def Sys2Proof.Claims.UniformBranches : Prop :=
  ∀ (h : Hdr) (disp : BitVec 30) (a d r : BitVec 7),
    Claims.Does (.nop h) (fun _ s => s) ∧
    Claims.Does (.yield h) (fun _ s => s) ∧
    Claims.Jumps (.bra h disp) (fun c => dispPc c.pc disp) (fun _ s => s) ∧
    Claims.Jumps (.brx h a) (fun c => c.sPair a) (fun _ s => s) ∧
    Claims.Jumps (.ret h a) (fun c => c.sPair a) (fun _ s => s) ∧
    Claims.Jumps (.call h d (.i disp)) (fun c => dispPc c.pc disp)
      (fun c s => c.fix s 2 (scaWrites d.toNat 2 (nextPc c.pc).toNat)) ∧
    Claims.Jumps (.call h d (.s r)) (fun c => c.sPair r)
      (fun c s => c.fix s 2 (scaWrites d.toNat 2 (nextPc c.pc).toNat))

/-- R30, R31, R32: BRA.DUAL gives its split a second path and BRA.SPLIT a split of its own to the lanes that do not branch; where no such
entry is free, or a second path is live, the divergence is serialised on the stack, and beyond 32 entries the branch traps STACK. That the new split may
issue from the next clock, and that the stack stays with the branching split, is the model's choice (log entry 49); the MISALIGN and STACK traps have no field and the path's
lanes as their mask by log entry 53. -/
def Sys2Proof.Claims.DivergentBranches : Prop :=
  ∀ (h : Hdr) (disp : BitVec 30) (jl : BitVec 10) (js : BitVec 4),
    Claims.Diverges (.braDual h disp jl js) disp ∧
    Claims.Diverges (.braSplit h disp jl js) disp ∧
    (∀ s c, s.clears (.braDual h disp jl js) = some c → c.sel ≠ 0 → c.sel ≠ c.mask → pcOk (dispPc c.pc disp) = true →
      (c.w.split c.split).p2 = none →
      exec (.braDual h disp jl js) s = .next (((s.beginIssue c.id).modWave c.id fun w => w.modSplit c.split fun x =>
        { x with p1 := { x.p1 with mask := c.sel }
                 p2 := some { pc := nextPc c.pc, mask := c.mask &&& ~~~c.sel, readyAt := c.now + max h.st.toNat 1
                              yieldAt := if h.y then some (c.now + max h.st.toNat 1) else none }
                 dualJoin := joinPc c.pc jl js }).issued (.braDual h disp jl js) c (dispPc c.pc disp))) ∧
    (∀ s c j k, s.clears (.braSplit h disp jl js) = some c → c.sel ≠ 0 → c.sel ≠ c.mask → pcOk (dispPc c.pc disp) = true →
      (c.w.split c.split).p2 = none → c.w.freeSplit = some k → c.w.freeJoin = some j →
      exec (.braSplit h disp jl js) s = .next (((s.beginIssue c.id).modWave c.id fun w =>
        ((({ w with joins := lmod w.joins j fun _ =>
            { used := true, joinPc := joinPc c.pc jl js, expected := c.mask, arrived := 0, outer := (w.split c.split).parent } } : Wave).modSplit
          c.split fun x => { x with p1 := { x.p1 with mask := c.sel }, parent := some j })).modSplit k fun _ =>
            { st := .running, p1 := { pc := nextPc c.pc, mask := c.mask &&& ~~~c.sel, readyAt := c.now + 1 }, parent := some j }).issued
        (.braSplit h disp jl js) c (dispPc c.pc disp))) ∧
    (∀ i, i = .braDual h disp jl js ∨ i = .braSplit h disp jl js → ∀ s c, s.clears i = some c → c.sel ≠ 0 → c.sel ≠ c.mask →
      pcOk (dispPc c.pc disp) = true → (c.w.split c.split).p2.isSome ∨ (i = .braSplit h disp jl js ∧ (c.w.freeSplit = none ∨ c.w.freeJoin = none)) →
      let at_ := c.w.split c.split
      let other := c.mask &&& ~~~c.sel
      let dual : List StackEntry := match at_.p2 with
        | some p =>
          let o := if c.second then at_.p1 else p
          [⟨.pending, o.pc, o.mask, at_.dualJoin, o.wait, o.readyAt, o.yieldAt⟩, ⟨.reconverge, at_.dualJoin, at_.p1.mask ||| p.mask, 0, none, 0, none⟩]
        | none => []
      (32 < at_.stack.length + (if at_.p2.isSome then 4 else 2) → Claims.Traps i s c .stack 0 .none c.mask 0) ∧
      (at_.stack.length + (if at_.p2.isSome then 4 else 2) ≤ 32 →
        exec i s = .next ((((s.beginIssue c.id).modWave c.id fun w => (if at_.p2.isSome then w.pushLats c.split c.second (at_.stack.length + 1) else w).modSplit c.split fun x =>
          { x with stack := [⟨.pending, nextPc c.pc, other, joinPc c.pc jl js, none, 0, none⟩,
                     ⟨.reconverge, joinPc c.pc jl js, c.sel ||| other, 0, none, 0, none⟩] ++ dual ++ x.stack
                   p1 := { x.path c.second with mask := c.sel }, p2 := none, dualJoin := 0 }).markIssue c).advance i { c with second := false }
            (dispPc c.pc disp))))

/-- R33, R325, R34, R312, R204: JOIN moves its path on and then joins at the innermost join of its split, if that is its PC; EXIT ends the selected
lanes. The EXC_THRESHOLD traps due to a split that a merge has made FREE go to the split that holds its lanes, and those of a split whose lanes have
ended to none (the model's choice, log entry 89). A branch's trap has no field and the path's lanes as its mask (log entry 53). -/
def Sys2Proof.Claims.JoinAndExit : Prop :=
  ∀ (h : Hdr) s c,
    (s.clears (.join h) = some c → exec (.join h) s =
      .next (((s.beginIssue c.id).issued (.join h) c (nextPc c.pc)).regroup c.id fun w => w.join c.split c.second c.pc)) ∧
    (s.clears (.exit h) = some c → c.sel = 0 → exec (.exit h) s = .next ((s.beginIssue c.id).issued (.exit h) c (nextPc c.pc))) ∧
    (s.clears (.exit h) = some c → c.sel ≠ 0 → exec (.exit h) s =
      .next (((s.beginIssue c.id).issued (.exit h) c (nextPc c.pc)).regroup c.id fun w => w.exit c.split c.second c.sel)) ∧
    (∀ (s : State) (id : WaveId) (w : Wave) (f : Wave → Wave), s.wave id = some w →
      ∃ x, (s.regroup id f).wave id = some x ∧ x = { f w with due := x.due } ∧
        x.due = (f w).due.map (fun t => if t.cause = .excThreshold then { t with split := w.heir (f w) t.split } else t) ∧
        ((∀ k, k < 4 → w.heir (f w) k = k) → s.regroup id f = s.setWave id (f w)))

/-- R33: what a join does to the wave. A JOIN that is not at the innermost join does nothing. Two paths of a dual pair that have both come to
the join become one path with the lanes of both behind the JOIN; whichever comes first waits there. Entries of the stack without lanes, or with lanes that have all ended, are
popped, and the lanes of the next that have not ended go on with that entry's wait; where no entry has any, all are popped. With neither, the split's lanes arrive at its join entry; where they are not
all that it expects the split parks, and the last arrival merges: the lowest split parked there takes every expected lane behind the JOIN and
the outer join as its parent, the others become FREE, and so does the entry. -/
def Sys2Proof.Claims.JoinRule : Prop :=
  ∀ (w : Wave) (k : Nat) (pc : PC) (p : Path) (e : StackEntry) (t : List StackEntry) (j : Nat), k < w.splits.length →
    (∀ second, w.innermost k ≠ some pc → w.join k second pc = w) ∧
    (w.innermost k = some pc → (w.split k).p2 = some p → p.atJoin = false →
      ((w.join k false pc).split k).p1.atJoin = true ∧ ((w.join k false pc).split k).p2 = some p) ∧
    (w.innermost k = some pc → (w.split k).p2 = some p → (w.split k).p1.atJoin = false →
      (w.join k true pc).split k = { w.split k with p2 := some { p with atJoin := true, pc := pc } }) ∧
    (∀ second, w.innermost k = some pc → (w.split k).p2 = some p → (if second then (w.split k).p1 else p).atJoin = true →
      ((w.join k second pc).split k).p2 = none ∧ ((w.join k second pc).split k).p1.mask = (w.split k).p1.mask ||| p.mask ∧
      ((w.join k second pc).split k).p1.pc = nextPc pc ∧ ((w.join k second pc).split k).p1.atJoin = false) ∧
    (∀ l, w.innermost k = some pc → (w.split k).p2 = none → (w.split k).stack = l ++ e :: t → (∀ x ∈ l, x.mask &&& ~~~w.ended = 0) →
      e.mask &&& ~~~w.ended ≠ 0 →
      ((w.join k false pc).split k).stack = t ∧ ((w.join k false pc).split k).p1.mask = e.mask &&& ~~~w.ended ∧
      ((w.join k false pc).split k).p1.wait = e.wait ∧
      ((w.join k false pc).split k).p1.pc = (if e.kind = .reconverge then nextPc pc else e.pc)) ∧
    (w.innermost k = some pc → (w.split k).p2 = none → (w.split k).stack ≠ [] → (∀ x ∈ (w.split k).stack, x.mask &&& ~~~w.ended = 0) →
      (w.join k false pc).split k = { w.split k with stack := [] }) ∧
    (w.innermost k = some pc → (w.split k).p2 = none → (w.split k).stack = [] → (w.split k).parent = some j → j < w.joins.length →
      (w.joins.getD j {}).arrived ||| (w.split k).p1.mask ≠ (w.joins.getD j {}).expected →
      ((w.join k false pc).split k).st = .parkedJoin ∧
      ((w.join k false pc).joins.getD j {}).arrived = (w.joins.getD j {}).arrived ||| (w.split k).p1.mask) ∧
    (k < 4 → w.innermost k = some pc → (w.split k).p2 = none → (w.split k).stack = [] → (w.split k).parent = some j → j < w.joins.length →
      (w.joins.getD j {}).arrived ||| (w.split k).p1.mask = (w.joins.getD j {}).expected →
      let v := w.join k false pc
      let there : Nat → Prop := fun n => n = k ∨ ((w.split n).st = .parkedJoin ∧ (w.split n).parent = some j)
      v.joins.getD j {} = {} ∧
      ∀ n, n < 4 →
        (there n → (∀ m, m < n → ¬there m) → (v.split n).st = .running ∧ (v.split n).p1.mask = (w.joins.getD j {}).expected ∧
          (v.split n).p1.pc = nextPc pc ∧ (v.split n).parent = (w.joins.getD j {}).outer) ∧
        (there n → (∃ m, m < n ∧ there m) → v.split n = {}) ∧ (¬there n → v.split n = w.split n))

/-- R30 to R33: divergent branches and joins. The clock from which the new split may issue and the stack that stays with the branching split are the
model's choice (log entry 49); that the MISALIGN and STACK traps have no field and the path's lanes as their mask is the model's reading (log entry
53). -/
def Obligations.DivergenceRules : Prop := Claims.DivergentBranches ∧ Claims.JoinRule

/-- R34, R135, R312: what the end of lanes does to the wave. Their bindings close, and no other. They leave the paths and the stack of their split.
Where their path has lanes left it goes on; else the split goes on as its other path, behind the join if that has stopped there, else with the
first lanes of its stack, or becomes FREE. They leave Expected of the split's join entry and of every outer one; an entry that
then has all it expects merges at once. The other splits lose the ended lanes from their stacks, where R33 would drop them at the pop, and change in
nothing else. -/
def Sys2Proof.Claims.ExitRule : Prop :=
  ∀ (w : Wave) (k : Nat) (second : Bool) (m : Lanes), k < 4 → k < w.splits.length → (w.split k).st = .running →
    let v := w.exit k second m
    let x := (w.split k).drop m
    let up := Claims.outerJoins w 4 (w.split k).parent
    let entry : Nat → JoinEntry := fun j =>
      let e := w.joins.getD j {}
      if j ∈ up then { e with expected := e.expected &&& ~~~m } else e
    let ends := w.ended ||| m
    let merges : Nat → Prop := fun j => (entry j).used = true ∧ (entry j).arrived = (entry j).expected
    (∀ l n, l < 64 → n < 16 → v.bind l n = if m.getLsbD l = true then {} else w.bind l n) ∧
    ((x.path second).mask ≠ 0 → v.split k = x) ∧
    (∀ p, (x.path second).mask = 0 → x.p2 = some p →
      let o := if second then x.p1 else p
      v.split k = { x with p1 := if o.atJoin then { o with atJoin := false, pc := nextPc x.dualJoin } else o, p2 := none, dualJoin := 0 }) ∧
    (∀ l e t, (x.path second).mask = 0 → x.p2 = none → x.stack = l ++ e :: t → (∀ y ∈ l, y.mask &&& ~~~ends = 0) → e.mask &&& ~~~ends ≠ 0 →
      v.split k = { x with stack := t, p1 := x.p1.resumeEntry { e with mask := e.mask &&& ~~~ends } (if e.kind = .pending then e.pc else nextPc e.pc) }) ∧
    ((x.path second).mask = 0 → x.p2 = none → (∀ y ∈ x.stack, y.mask &&& ~~~ends = 0) → v.split k = {}) ∧
    v.ended = ends ∧
    (∀ j, j < 4 → j < w.joins.length → (merges j → v.joins.getD j {} = {}) ∧ (¬merges j → v.joins.getD j {} = entry j)) ∧
    (∀ n j, n < 4 → n ≠ k → (w.split n).st = .parkedJoin → (w.split n).parent = some j → j < 4 → j < w.joins.length → merges j →
      let there : Nat → Prop := fun i => (w.split i).st = .parkedJoin ∧ (w.split i).parent = some j
      ((∀ i, i < n → ¬there i) → v.split n = { (w.split n).dropStack m with
        st := .running, parent := (entry j).outer, p1 := { (w.split n).p1 with mask := (entry j).expected, pc := nextPc (entry j).joinPc } }) ∧
      ((∃ i, i < n ∧ there i) → v.split n = {})) ∧
    (∀ n, n ≠ k → ((w.split n).st ≠ .parkedJoin ∨ (∀ j, (w.split n).parent = some j → ¬merges j)) → v.split n = (w.split n).dropStack m) ∧
    (∀ n, ((w.split n).dropStack m).stack = (w.split n).stack.map fun e => { e with mask := e.mask &&& ~~~m })

/-- R363, R82: SLEEP parks its path for its count; the path goes on once the count has run, and a yield ends 8 clocks after the stall
count, or once the stall count has run when another candidate of its partition issues. -/
def Sys2Proof.Claims.SleepAndExpiries : Prop :=
  (∀ (h : Hdr) (n : Opnd), Claims.Does (.sleep h n) fun c s =>
    if c.any && Claims.sraw c n 1 != 0 then
      s.modWave c.id fun w => w.modPath c.split c.second c.hand fun p => { p with wait := some (.sleep (c.now + Claims.sraw c n 1)) }
    else s) ∧
  (∀ (p : PathId) s w, s.wave p.wave = some w → w.resident = true → w.dbg = false →
    ∃ t x, exec (.sleepExpiry p) s = .next t ∧ t.wave p.wave = some x ∧ t = s.setWave p.wave x ∧
      (∀ k n, k < 4 → k < w.splits.length → w.hand = none → (w.split k).st = .running → (w.split k).p2 = none → (w.split k).p1.wait = some (.sleep n) →
        (n ≤ s.clkOf p.wave → (x.split k).p1.wait = none) ∧ (s.clkOf p.wave < n → (x.split k).p1.wait = some (.sleep n)))) ∧
  (∀ (p : PathId) s w t, s.wave p.wave = some w → (w.pathAt p.split p.second w.inHandler).yieldAt = some t → t + 8 ≤ s.clkOf p.wave →
    exec (.yieldExpiry p) s = .next (s.setWave p.wave (w.modPath p.split p.second w.inHandler fun x => { x with yieldAt := none }))) ∧
  (∀ (i : Instr) (c : Ctx) (s : State) (pc : PC) (id : WaveId) (w : Wave), s.wave id = some w → id ≠ c.id → ∃ x, (s.issued i c pc).wave id = some x ∧
    (w.core ≠ c.w.core ∨ w.part ≠ c.w.part → x = w) ∧
    (w.core = c.w.core → w.part = c.w.part → ∀ k second hand, x.pathAt k second hand =
      { w.pathAt k second hand with yieldAt := match (w.pathAt k second hand).yieldAt with
        | some t => if t ≤ c.now then none else some t
        | none => none }))

/-- R34, R82, R299, R301, R302, R312, R325, R342, R352, R363, R384: uniform control, JOIN and EXIT, SLEEP and the ends of sleeps and yields. That a
branch's MISALIGN has no field and the path's lanes as its mask is the model's reading (log entry 53). -/
def Obligations.ControlInstructions : Prop := Claims.UniformBranches ∧ Claims.JoinAndExit ∧ Claims.ExitRule ∧ Claims.SleepAndExpiries

namespace Sys2Proof.Claims

open Sys2Proof.Machine

/-- The opcode of an instruction (04 R75). -/
def opcode (i : Instr) : Nat := i.fields.op.toNat

/-- The opcodes that a handler may issue (17 R257). -/
def handlerOps : List Nat :=
  [0x001, 0x002, 0x003, 0x004, 0x005, 0x008, 0x009, 0x181, 0x182, 0x200, 0x201, 0x202, 0x205, 0x207, 0x20A, 0x20B] ++
    (List.range 13).map (0x280 + ·) ++ (List.range 8).map (0x2C0 + ·)

/-- Whether an instruction is of the privileged class and not TRAP, nor MFS of a register that is readable outside handler mode, or is
REOPEN.TRAP (04 R91; 06 R140; 21 R334). -/
def privileged (i : Instr) : Bool :=
  (0x2C1 ≤ opcode i && opcode i ≤ 0x2C7 && !(match i with | .mfs _ _ n => !(n == 0x10 || n == 0x11 || n == 0x12) | _ => false)) ||
    (match i with | .reopenTrap .. => true | _ => false)

/-- The fixed latency of an instruction, by the table of 04 R84. -/
def latency : Instr → Option Nat
  | .sadd .. | .ssub .. | .smul .. | .smin .. | .smax .. | .slop3 .. | .sshl .. | .sshr .. | .slea .. | .smov .. | .scvt .. | .ssetp ..
  | .ssel .. | .mfs _ (.s _) _ | .call .. => some 2
  | .shfl .. | .readlane .. => some 6
  | .wred .. | .wscan .. | .isect .. | .frcp .. | .frsq .. | .fsqrt .. | .fexp2 .. | .flog2 .. | .fsin .. | .fcos .. => some 12
  | .dadd .. | .dmul .. | .dfma .. => some 8
  | .cvt _ _ _ dt st _ _ => some (if dt = .f64 ∨ st = .f64 then 8 else 4)
  | .elect .. | .vote .. | .fadd .. | .fsub .. | .fmul .. | .ffma .. | .fmin .. | .fmax .. | .fscale .. | .frnd .. | .fclass .. | .fdot2 ..
  | .hadd2 .. | .hmul2 .. | .hfma2 .. | .qpack .. | .qunpack .. | .wquery .. | .mfs _ (.v _) _ => some 4
  | .iadd .. | .isub .. | .imul .. | .imulhi .. | .imad .. | .imin .. | .imax .. | .iabs .. | .isad .. | .idot4 .. | .lop3 .. | .shl .. | .shr ..
  | .shra .. | .rot .. | .shf .. | .bfe .. | .bfi .. | .popc .. | .clz .. | .brev .. | .prmt .. | .lea .. | .mov .. | .movi .. | .setp .. | .plop ..
  | .sel .. => some 4
  | _ => none

/-- The instructions of fixed latency that trap in no case of their own: all but CALL and ISECT, whose addresses or operands may trap. -/
def pureFixed (i : Instr) : Bool := (latency i).isSome && !(match i with | .call .. | .isect .. => true | _ => false)

end Sys2Proof.Claims

/-! Reset, words and steps. -/

/-- 17 R273, 12 R208, 11 R202: what power-on reset leaves. Every clock stands at 0, every tile is free with cells of +0.0, every core counts
exceptions with %excctl 0x0011_1111, threshold 0xFFFF, count 0 and no window, and every corrected-error counter has the threshold 0xFFFF
and no window; no session but that of the management firmware, no grid, no wave and no operation exists. -/
def Sys2Proof.Claims.ResetState : Prop :=
  State.reset.now = 0 ∧ (∀ d, State.reset.clk d = 0) ∧ State.reset.grids = [] ∧ State.reset.waves = [] ∧ State.reset.ops = [] ∧ State.reset.hearths = [] ∧
  State.reset.sessions.map Prod.fst = [0] ∧
  (∀ k, ∀ t ∈ (State.reset.hearth k).tiles, t.owner = none ∧ ∀ n, sget 0 t.cells n = 0) ∧
  (∀ c, excctlWord (State.reset.core c) 0 = 0x00111111#32 ∧ (State.reset.core c).fired = 0 ∧
    (State.reset.core c).exc = List.replicate 6 { act := 0, ena := true, threshold := 0xFFFF, count := 0, window := 0, started := 0, armed := true }) ∧
  (∀ d n, tget (State.reset.die d).ce n = none) ∧ ({} : CeCounter).threshold = 0xFFFF ∧ ({} : CeCounter).window = 0

/-- The words that the spec works out bit by bit decode to the instructions they stand for (04, 08, 10, 12, 14, 16 and 19 to 22). -/
def Obligations.SpecWords : Prop :=
  decode 0x005C00000000000000000000#96 = .ok (.nop ⟨⟨false, 7⟩, 0, false, 0⟩) ∧
  decode 0x302801401000C01800000014#96 = .ok (.fadd ⟨⟨true, 2⟩, 4, true, 0⟩ 5 (.v 4) (.v 3) .rz false false) ∧
  decode 0x801D03000000000300000000#96 = .ok (.commit ⟨⟨false, 7⟩, 0, false, 0⟩ 12 3 none) ∧
  decode 0x600600801902983200000000#96 = .ok (.open ⟨⟨false, 1⟩, 0, false, 0⟩ 2 (.v 6) 10 2 false 3 24) ∧
  decode 0x910280804000004800000000#96 = .ok (.mma ⟨⟨false, 0⟩, 0, false, 0⟩ 2 16 .plus true 1) ∧
  decode 0x901D029052D0980000000000#96 = .ok (.cpy ⟨⟨false, 7⟩, 0, false, 0⟩ 10 20 (some ⟨1, 2⟩) .mm 24) ∧
  decode 0x628400A00B00003100000000#96 = .ok (.cstw ⟨⟨false, 1⟩, 0, false, 0⟩ 2 2 (.i 0) .n32 3) ∧
  decode 0x819D012D0F00000000008000#96 = .ok (.arrive ⟨⟨false, 7⟩, 0, false, 0⟩ 4 ⟨1, 3⟩ (.i 8)) ∧
  decode 0x008700C00300000200023000#96 = .ok (.braSplit ⟨⟨false, 1⟩, 0, false, 0⟩ 0x23 3 0) ∧
  decode 0x501C00800400020C00000000#96 = .ok (.cvt ⟨⟨false, 7⟩, 0, false, 0⟩ 2 (.v 1) .e4m3 .f32 .rn false) ∧
  decode 0x101C02802B00800001800000#96 = .ok (.iadd ⟨⟨false, 7⟩, 0, false, 0⟩ 10 (.v 10) (.i 0x201800) .i32 false) ∧
  decode 0xB09D03800000000000004002#96 = .ok (.mfs ⟨⟨false, 7⟩, 2, false, 0⟩ (.s 14) 4) ∧
  decode 0xA2DE40105700000000000002#96 = .ok (.ssetp ⟨⟨false, 7⟩, 2, false, 0⟩ 0 21 (.i 0) .i32 .eq)

/-- R75 to R80 and the encodings of the entries: every well-formed instruction's word decodes to that instruction, with every operand at every
value that its encoding admits. -/
def Obligations.DecodeEncode : Prop := ∀ i : Instr, WellFormed i → decode (encode i) = .ok i

/-- R90: a word that decodes to an instruction of the table, and not to an unassigned opcode, is the one word of a well-formed instruction: no
bit that the entry requires to be zero may be set, and no two words have one meaning. -/
def Obligations.EncodeOfDecode : Prop :=
  ∀ (w : IWord) (i : Instr), decode w = .ok i → i.isEvent = false → WellFormed i ∧ encode i = w

/-- R72, R73, R78: which PCs are well formed, which PC follows one, and where a code displacement goes; a displacement whose slot exceeds 9 is
ILLEGAL, OPERAND_RANGE. -/
def Obligations.CodeAddresses : Prop :=
  (∀ pc : PC, pcOk pc = true ↔ pc.toNat < 2 ^ 56 ∧ pc.toNat % 128 ≤ 9) ∧
  (∀ pc : PC, pcOk pc = true → (nextPc pc).toNat = if pc.toNat % 128 < 9 then pc.toNat + 1 else pc.toNat - 9 + 128) ∧
  (∀ (pc : PC) (d : BitVec 30), dispPc pc d =
    BitVec.ofNat 64 (pc.toNat / 128 * 128) + BitVec.ofInt 64 (128 * (d.extractLsb' 4 26).toInt) + (d.extractLsb' 0 4).zeroExtend 64) ∧
  (∀ (h : Hdr) (d : BitVec 30) (r a : BitVec 7) (jl : BitVec 10) (js : BitVec 4), 9 < (d.extractLsb' 0 4).toNat →
    decode (Instr.bra h d).fields.toWord = .error ⟨.operandRange, .b⟩ ∧
    (js.toNat ≤ 9 → decode (Instr.braDual h d jl js).fields.toWord = .error ⟨.operandRange, .b⟩ ∧
      decode (Instr.braSplit h d jl js).fields.toWord = .error ⟨.operandRange, .b⟩) ∧
    (r.toNat % 2 = 0 → decode (Instr.call h r (.i d)).fields.toWord = .error ⟨.operandRange, .b⟩) ∧
    (a.toNat % 2 = 0 → decode (Instr.launch h r a (some d)).fields.toWord = .error ⟨.operandRange, .b⟩))

/-- R90, and the model's order of a step (log entry 1): where no event is due and the next candidate's line is in the fetch buffers of its core,
a step issues that candidate: it decodes the word at its PC and executes the instruction, or takes the trap of the check that the word fails.
Outside handler mode, the failure of a word of no privileged opcode is ILLEGAL with the sub-code and field of the check; in handler mode, an
opcode outside the handler subset is PRIV.
That the ILLEGAL and PRIV traps have the path's lanes as their mask is the model's reading (log entry 53). -/
def Sys2Proof.Claims.StepIssues : Prop :=
  ∀ (s : State) (x : Cand) (c : Ctx) (w : Wave) (k : IWord),
    (∀ e ∈ s.inputs.head?, s.now < e.1 ∨ e.2.late = true) → s.due = none → s.nextIssue = some x →
    ({ s with cur := ⟨x.id, x.split, x.second⟩ } : State).issuer = some c → s.wave x.id = some w →
    (c.hand = true ∨ (w.excDue c.split = none ∧ w.matrixDue = none)) →
    ({ s with cur := ⟨x.id, x.split, x.second⟩ } : State).fetched c = .word k →
    (∀ i, decode k = .ok i → step s = exec i { s with cur := ⟨x.id, x.split, x.second⟩ }) ∧
    (∀ e, decode k = .error e → ∃ t, step s = .next (({ s with cur := ⟨x.id, x.split, x.second⟩ } : State).takeTrap c.id t) ∧
      (c.hand = false → (k.extractLsb' 86 10).toNat < 0x2C0 → k.extractLsb' 86 10 ≠ 0x182 → t = c.exact .illegal e.sub.code e.field c.mask 0) ∧
      (c.hand = true → Claims.handlerOps.contains (k.extractLsb' 86 10).toNat = false → t = c.exact .priv 0 .none c.mask 0))

/-- The model's order of a step (log entry 1): an input whose clock has come; what is due; the next issue; a completion, where engines complete as
soon as they may; a limit that has run; and else the clock ends and the next begins. A debug halt, a pre-emption, the end of a slice, a die
reset, and the calls that pre-empt (CORE_RETIRE, POWER to IDLE) come after what is due and what issues in their clock (R263), and so do limits
that have run (R48, R233, R270). Of the inputs that are no event of the table, a firmware wave of an online die takes the oldest message of its core's mailbox, or sends one (R13,
R339 to R341; log entry 10), and a management call sets the UDP port (R283; log entry 43). -/
def Sys2Proof.Claims.StepOrder : Prop :=
  ∀ s : State,
    (∀ t i r, s.inputs = (t, .event i) :: r → t ≤ s.now → isInput i = true → (isLate i = false ∨ (s.due = none ∧ s.nextIssue = none)) →
      step s = exec i { s with inputs := r }) ∧
    (∀ t port r, s.inputs = (t, .udpPort port) :: r → t ≤ s.now → step s = .next { s with inputs := r, udpPort := port.toNat }) ∧
    (∀ t die core r, s.inputs = (t, .fwTake die core) :: r → t ≤ s.now → let u : State := { s with inputs := r }
      (s.up die = true → step s = .next (u.modDie die fun d => { d with boxes := lmod d.boxes core fun l => l.tail })) ∧
      (s.up die = false → step s = .next u)) ∧
    (∀ t die core slot pos hand box words r, s.inputs = (t, .fwSend die core slot pos hand box words) :: r → t ≤ s.now →
      let u : State := { s with inputs := r }
      (s.up die = true → die < 4 → core < 4 → slot < 144 → pos < 8 → words.length = 16 →
        step s = .next (u.send box { sender := senderWord ⟨die, 48 + core⟩ slot pos hand true, words := words }).1) ∧
      (s.up die = false → step s = .next u)) ∧
    ((∀ e ∈ s.inputs.head?, s.now < e.1 ∨ (e.2.late = true ∧ (s.due.isSome = true ∨ s.nextIssue.isSome = true))) →
      (∀ o, s.due = some o → step s = o) ∧
      (s.due = none → s.nextIssue = none →
        (∀ t, s.auto = true → s.completes = some t → step s = .next t) ∧
        ((s.auto = false ∨ s.completes = none) →
          (∀ t, (s.limits.findSome? fun i => tryEvent i s) = some t → step s = .next t) ∧
          ((s.limits.findSome? fun i => tryEvent i s) = none → ∃ t, step s = .next t ∧ t.now = s.now + 1))))

/-- R90: a step runs the instruction that its decoder reads, or takes the trap of the check that the word fails; and the model's order of what a step does
(log entry 1). That the ILLEGAL and PRIV traps have the path's lanes as their mask is the model's reading (log entry 53). -/
def Obligations.StepRunsDecoded : Prop := Claims.StepIssues ∧ Claims.StepOrder

/-- The form of memory (log entry 5): every step from a state whose memory lists its bytes in rising order of address, and no byte that reads as
an unlisted one, leaves memory in that form. -/
def Obligations.MemFormKept : Prop := ∀ s t : State, Memory.wf s.mem = true → step s = .next t → Memory.wf t.mem = true

/-- The memory after reset has that form, and every byte of it reads 0 (log entry 5). -/
def Sys2Proof.Claims.MemFormReset : Prop := Memory.wf State.reset.mem = true ∧ ∀ a, State.reset.rd a = 0

/-- What reset leaves (R202, R208, R273); that memory then lists nothing and reads 0 is the model's choice (log entry 5). That no wave, and so no firmware
wave, exists at reset is the model's choice (log entries 10, 12). -/
def Obligations.Reset : Prop := Claims.ResetState ∧ Claims.MemFormReset

/-! One issue, before its meaning. -/

/-- R90: what an instruction answers that a path may issue: the trap of the first of the checks of privilege, handler subset, pairing and
allocation that fails; else it holds at issue without effect (R51, R85, R88); else its path waits for a register line that is not in the
cache (R113); else, in a checked launch, it traps STALL_CHECK with the PC of the producer whose result it would read too early (R87); else it
traps DATA_ERROR where it reads a register line found uncorrectable (R271). -/
def Sys2Proof.Claims.IssueOutcomes : Prop :=
  ∀ (i : Instr) (s : State) (c : Ctx), i.isEvent = false → s.issuer = some c →
    (∀ t, entryTrap i (c.guard i) = some t → exec i s = .next (s.takeTrap c.id t)) ∧
    (entryTrap i (c.guard i) = none → held i (c.guard i) s = true → exec i s = .next s) ∧
    (entryTrap i (c.guard i) = none → held i (c.guard i) s = false →
      (∀ l, ((readLines i (c.guard i)).find? fun l => c.w.away.contains l.2) = some l → exec i s = .next (s.modWave c.id fun w =>
        w.modPath c.split c.second c.hand fun p => { p with wait := some (.regLine l.2) })) ∧
      (((readLines i (c.guard i)).find? fun l => c.w.away.contains l.2) = none →
        (∀ f, c.grid.rec_.check = true → stallFault i (c.guard i) s = some f →
          exec i s = .next (s.takeTrap c.id (c.exact .stallCheck 0 f.1 c.mask f.2))) ∧
        ((c.grid.rec_.check = false ∨ stallFault i (c.guard i) s = none) → ∀ l,
          ((readLines i (c.guard i)).find? fun l => c.w.badRegs.contains l.2) = some l →
          exec i s = .next (s.takeTrap c.id (c.exact .dataError 0 l.1 c.mask 0)))))

/-- R79: the lanes in which an instruction acts: the active lanes in which the guard predicate, as it stands at the issue, is true, or false for a
negated guard; pt selects every active lane, and its negation none, and both are legal. In a handler the predicates are its own (R257). -/
def Obligations.GuardSelects : Prop :=
  (∀ (i : Instr) (c : Ctx), c.hand = false →
    (∀ l, (c.guard i).sel.getLsbD l = (c.mask.getLsbD l && ((c.w.predMask (hdrOf i).guard.p.toNat).getLsbD l != (hdrOf i).guard.neg))) ∧
    ((hdrOf i).guard = ⟨false, 7⟩ → (c.guard i).sel = c.mask) ∧ ((hdrOf i).guard = ⟨true, 7⟩ → (c.guard i).sel = 0)) ∧
  (∀ (i : Instr) (c : Ctx) (h : Handler), c.hand = true → c.w.hand = some h → c.mask = 1 →
    (c.guard i).sel = if (if (hdrOf i).guard.p = 7 then true else h.preds.getLsbD (hdrOf i).guard.p.toNat) != (hdrOf i).guard.neg then 1 else 0) ∧
  (∀ (neg : Bool) (st : BitVec 4) (y : Bool) (ru : BitVec 3), decode (encode (.nop ⟨⟨neg, 7⟩, st, y, ru⟩)) = .ok (.nop ⟨⟨neg, 7⟩, st, y, ru⟩))

/-- R91, R140, R334: outside handler mode, a wave that is no firmware wave traps PRIV at an instruction of the privileged class, but for TRAP
and an MFS of a register readable outside handler mode, and at REOPEN.TRAP. No other instruction, and none of a firmware wave, meets PRIV in the
checks that precede its meaning; REOPEN.TRAP of a firmware wave traps PRIV in its own.
That the PRIV trap has no field and the path's lanes as its mask is the model's reading (log entry 53). -/
def Obligations.PrivilegedClass : Prop :=
  ∀ (i : Instr) (s : State) (c : Ctx), i.isEvent = false → s.issuer = some c → c.hand = false →
    (Claims.privileged i = true → c.w.firmware = false → exec i s = .next (s.takeTrap c.id (c.exact .priv 0 .none c.mask 0))) ∧
    ((Claims.privileged i = false ∨ c.w.firmware = true) → ∀ t, entryTrap i (c.guard i) = some t → t.cause = .illegal) ∧
    (∀ h st tmo d, i = .reopenTrap h st tmo → s.clears i = some d → Claims.Traps i s d .priv 0 .none d.mask 0)

/-- R257, R260, R335: an instruction whose opcode is not in the handler subset, or an MFS to a vector register, has no effect in handler mode:
the wave halts, with cause DOUBLE and the inner cause PRIV; its results of fixed latency land (R89), and no other part of it, no other wave, no operation and no byte of device memory changes.
That OPEN is one of these instructions, where a row of R128 has ILLEGAL, is the model's reading (log entry 54). -/
def Obligations.HandlerSubset : Prop :=
  ∀ (i : Instr) (s : State) (c : Ctx) (w : Wave), i.isEvent = false → s.issuer = some c → c.hand = true → s.wave c.id = some w →
    (Claims.handlerOps.contains (Claims.opcode i) = false ∨ (∃ h r n, i = .mfs h (.v r) n)) →
    ∃ t x r n, exec i s = .next t ∧ t.wave c.id = some x ∧ x = { w.landAll with mode := .halted true c.split c.second } ∧ x.runs = false ∧
      t.records = s.records ++ [(n, r)] ∧ r.type = 0x10 ∧ r.detail.extractLsb' 0 8 = 0x02 ∧ (∀ j, j ≠ c.id → t.wave j = s.wave j) ∧
      t.ops = s.ops ∧ t.cores = s.cores ∧ t.blocks = s.blocks ∧ ∀ a, a < hostBase → t.rd a = s.rd a

/-- R90 steps 7 and 9, R4, R87, R88: outside handler mode, an instruction that privilege does not stop traps ILLEGAL, PAIR, with field D where it is a ballot of a 64-wide wave into
an odd register; else ILLEGAL, ALLOCATION, with the field of the first register, of those it names in the order of its fields, that lies at or above the allocation of its wave; and
else none of these. The order of the fields is D, A, B, as for IADD. In a checked launch, the field and the PC that STALL_CHECK reports are those of a read and of the producer of a result that is
not due to a register that it reads, and a result of its own split in a lane that it has, or a scalar of its own path, that a read meets before it is due is so reported. -/
def Sys2Proof.Claims.EntryChecks : Prop :=
  (∀ (i : Instr) (s : State) (c : Ctx), i.isEvent = false → s.issuer = some c → c.hand = false → (Claims.privileged i = false ∨ c.w.firmware = true) →
    let odd := c.w.width = 64 ∧ ∃ h p, (∃ d : BitVec 8, i = .vote h .ballot (.v d) p ∧ d.toNat % 2 = 1) ∨ (∃ d : BitVec 7, i = .vote h .ballot (.s d) p ∧ d.toNat % 2 = 1)
    let beyond : Use → Bool := fun u => match u.reg with
      | .v r => decide (c.w.valloc < r + u.n)
      | .s r => decide (c.w.salloc < r + u.n)
      | .p _ => false
    (odd → exec i s = .next (s.takeTrap c.id (c.exact .illegal 7 .d c.mask 0))) ∧
    (∀ u, ¬odd → (usesAt c.w.width i).find? beyond = some u → exec i s = .next (s.takeTrap c.id (c.exact .illegal 6 u.fld c.mask 0))) ∧
    (¬odd → (∀ u ∈ usesAt c.w.width i, beyond u = false) → entryTrap i (c.guard i) = none)) ∧
  (∀ (h : Hdr) (d a b : BitVec 8) (width : Nat), (usesAt width (.iadd h d (.v a) (.v b) .i32 false)).map (fun u => (u.fld, u.reg, u.n, u.rd, u.wr)) =
    [(.d, .v d.toNat, 1, false, true), (.a, .v a.toNat, 1, true, false), (.b, .v b.toNat, 1, true, false)]) ∧
  (∀ (i : Instr) (s : State) (c : Ctx) (w : Wave), s.wave c.id = some w →
    let reads : Use → Prop := fun u => u ∈ usesAt c.w.width i ∧ u.rd = true
    (∀ fld pc, stallFault i c s = some (fld, pc) → ∃ f ∈ w.lats, ∃ u, c.now < f.due ∧ f.pc = pc ∧ runsMeet u.reg u.n f.reg 1 = true ∧
      ((reads u ∧ fld = if u.fld = .none then .a else u.fld) ∨ (u ∈ guardReads i c ∧ fld = .a))) ∧
    (∀ f ∈ w.lats, ∀ u, (reads u ∨ u ∈ guardReads i c) → c.now < f.due → runsMeet u.reg u.n f.reg 1 = true →
      ((f.reg.isS = false ∧ f.split = c.split ∧ f.hand = c.hand ∧ ∃ v ∈ f.vals, c.mask.getLsbD v.1 = true) ∨ (f.reg.isS = true ∧ c.ownWrite f = true)) →
      stallFault i c s ≠ none))

/-- R85: an instruction that reads, as an operand or as its guard, or writes a register for which an operation in flight of its own path has a write pending, in a lane that
has not ended, holds at issue. -/
def Sys2Proof.Claims.ScoreboardHolds : Prop :=
  ∀ (i : Instr) (s : State) (c : Ctx) (o : Op) (d : RReg × Nat × Lanes) (u : Use), i.isEvent = false → s.issuer = some c →
    entryTrap i (c.guard i) = none → o ∈ s.ops → o.wave = c.id → o.done = false → o.split = c.split → o.second = c.second →
    d ∈ o.kind.dests → (d.1.isS = true ∨ (c.hand = false ∧ d.2.2 &&& c.w.lanes ≠ 0)) →
    (u ∈ guardReads i c ∨ (u ∈ usesAt c.w.width i ∧ (u.rd = true ∨ u.wr = true))) → runsMeet u.reg u.n d.1 d.2.1 = true → exec i s = .next s

/-- R51, R85, R87, R88, R90, R113, R271: what one issue answers before the meaning of its instruction. That STALL_CHECK and DATA_ERROR have the path's
lanes as their mask is the model's reading (log entry 53). -/
def Obligations.IssueChecks : Prop := Claims.IssueOutcomes ∧ Claims.EntryChecks ∧ Claims.ScoreboardHolds

/-! Fixed latency. -/

/-- R84, R85: a result of a fixed-latency instruction becomes due at the latency of the table after its issue, and is to a register that the
instruction writes; none other is added. -/
def Sys2Proof.Claims.FixedLatencies : Prop :=
  ∀ (i : Instr) (n : Nat) (s t : State) (c : Ctx) (w x : Wave), WellFormed i → Claims.latency i = some n → s.clears i = some c →
    exec i s = .next t → s.wave c.id = some w → t.wave c.id = some x →
    ∀ f ∈ x.lats, f ∈ w.lats ∨ (f.due = s.clk c.w.core.die + n ∧ f.pc = c.pc ∧ ∃ u ∈ usesAt c.w.width i, u.wr = true ∧ runsMeet u.reg u.n f.reg 1 = true)

/-- What a fixed-latency instruction leaves unchanged at its issue (R84, R89): every register, every predicate, every binding, store buffer,
token, barrier and trap register of every wave, and every byte of memory. Of another wave nothing changes, but that a yield whose stall count has run ends on its partition (R82). Its own wave's paths move on, its results are noted, a copy whose status
it reads is observed (R236), and its core notes the issue and the exceptions it counts. -/
def Sys2Proof.Claims.FixedFrame : Prop :=
  ∀ (i : Instr) (s : State) (c : Ctx), Claims.pureFixed i = true → s.clears i = some c →
    ∃ t, exec i s = .next t ∧ t = { s with waves := t.waves, cores := t.cores, fresh := s.fresh + 1 } ∧ (∀ a, t.rd a = s.rd a) ∧
      (∀ id w, s.wave id = some w → ∃ x, t.wave id = some x ∧
        (id ≠ c.id → x = if w.core = c.w.core ∧ w.part = c.w.part then w.unyield c.now else w) ∧
        x = { w with splits := x.splits, hand := x.hand, lats := x.lats, overdue := x.overdue, readySince := x.readySince
                     started := x.started, recBlock := x.recBlock, recCluster := x.recCluster, seen := x.seen, unread := x.unread } ∧
        (∀ p ∈ x.unread, p ∈ w.unread) ∧ (id ≠ c.id → x.lats = w.lats ∧ x.seen = w.seen ∧ x.unread = w.unread)) ∧
      (∀ k, t.core k = { s.core k with evq := (t.core k).evq, issues := (t.core k).issues })

/-- R82, R84, R85, R89, R236: when results of fixed latency become due, and what an instruction of fixed latency leaves unchanged. -/
def Obligations.FixedResults : Prop := Claims.FixedLatencies ∧ Claims.FixedFrame

/-- R84, R86: in each lane of a wave, those of the issuing path and others, what its next instruction reads of a register, vector, scalar or predicate, a handler's own ones among them:
where every outstanding result to it is due, the value they leave; else either the value before them or one of those results, whatever other results
the wave has outstanding; and of a vector register to which only one is, either the value before it or the one it leaves. -/
def Sys2Proof.Claims.EarlyReads : Prop :=
  ∀ (w : Wave) (now fresh : Nat) (r lane : Nat), lane < 64 → (∀ f ∈ w.lats, ∀ v ∈ f.vals, v.1 < 64) →
    ((∀ f ∈ w.lats, f.reg = .v r → f.due ≤ now) → (w.view now fresh).vreg r lane = w.landAll.vreg r lane) ∧
    ((∀ f ∈ w.lats, f.reg = .s r → f.due ≤ now) → (w.view now fresh).sreg r = w.landAll.sreg r) ∧
    ((∀ f ∈ w.lats, f.reg = .p r → f.due ≤ now) → (w.view now fresh).predMask r = w.landAll.predMask r) ∧
    ((w.view now fresh).vreg r lane = w.vreg r lane ∨
      ∃ f ∈ w.lats, f.reg = .v r ∧ ∃ v ∈ f.vals, v.1 = lane ∧ (w.view now fresh).vreg r lane = v.2) ∧
    ((w.view now fresh).sreg r = w.sreg r ∨ ∃ f ∈ w.lats, f.reg = .s r ∧ ∃ v ∈ f.vals, (w.view now fresh).sreg r = v.2) ∧
    (((w.view now fresh).predMask r).getLsbD lane = (w.predMask r).getLsbD lane ∨ ∃ f ∈ w.lats, f.reg = .p r ∧ f.hand = false ∧
      ∃ v ∈ f.vals, v.1 = lane ∧ ((w.view now fresh).predMask r).getLsbD lane = v.2.getLsbD 0) ∧
    (∀ h k, w.hand = some h → (w.view now fresh).hand = some k → k.preds.getLsbD r = h.preds.getLsbD r ∨
      ∃ f ∈ w.lats, f.reg = .p r ∧ f.hand = true ∧ ∃ v ∈ f.vals, k.preds.getLsbD r = v.2.getLsbD 0) ∧
    (∀ f, (∀ g ∈ w.lats, g.reg = .v r → g = f) →
      (w.view now fresh).vreg r lane = w.vreg r lane ∨ (w.view now fresh).vreg r lane = w.landAll.vreg r lane)

/-- R84, R85: a result that is due lands in its register and leaves the outstanding ones; no other register changes, and no other part of the
machine. -/
def Sys2Proof.Claims.ResultLands : Prop :=
  ∀ (s : State) (id : WaveId) (w : Wave) (n : Nat) (f : FixedWrite), s.wave id = some w → w.lats[n]? = some f → f.due ≤ s.clk w.core.die →
    (∀ g ∈ w.lats, ∀ v ∈ g.vals, v.1 < 64) →
    ∃ x, exec (.fixedLatencyResultLands id n) s = .next (s.setWave id x) ∧
      x = { w with vregs := x.vregs, sregs := x.sregs, preds := x.preds, hand := x.hand, lats := x.lats, newer := x.newer, clean := x.clean } ∧
      x.lats.length < w.lats.length ∧ (∀ g ∈ x.lats, g ∈ w.lats) ∧
      (∀ r lane, lane < 64 → f.reg ≠ .v r → x.vreg r lane = w.vreg r lane) ∧
      (∀ r, f.reg ≠ .s r → x.sreg r = w.sreg r) ∧ (∀ p, f.reg ≠ .p p → x.predMask p = w.predMask p) ∧
      (∀ r v, f.reg = .s r → f.vals = [(0, v)] → x.sreg r = v) ∧
      (∀ r, f.reg = .v r → (f.vals.map Prod.fst).Nodup → ∀ v ∈ f.vals, x.vreg r v.1 = v.2) ∧
      (∀ p, p < 7 → f.reg = .p p → f.hand = false → (f.vals.map Prod.fst).Nodup → ∀ v ∈ f.vals, (x.predMask p).getLsbD v.1 = v.2.getLsbD 0)

/-- R84 to R86: results of fixed latency, read early and landed. That older results which must come before one that is due land with it is the model's
choice (log entry 93). -/
def Obligations.LatencyResults : Prop := Claims.EarlyReads ∧ Claims.ResultLands

/-- R73, R81, R82: an issue moves its path, be it either path of a split or a handler's, on to the PC given, which may issue again after its stall count, at least one clock later, and yields
from then on where the word says so; until then the path is not ready. Its core notes the issue. -/
def Obligations.IssueMarks : Prop :=
  (∀ (i : Instr) (c : Ctx) (s : State) (w : Wave) (pc : PC), s.wave c.id = some w →
    (if c.hand then w.hand.isSome = true else c.split < w.splits.length ∧ (c.second = true → (w.split c.split).p2.isSome = true)) →
    ∃ x, (s.issued i c pc).wave c.id = some x ∧
      x.pathAt c.split c.second c.hand = { w.pathAt c.split c.second c.hand with
        pc := pc, readyAt := c.now + max (hdrOf i).st.toNat 1
        yieldAt := if yields i c then some (c.now + max (hdrOf i).st.toNat 1) else none } ∧
      (s.issued i c pc).fresh = s.fresh + 1 ∧
      ((s.issued i c pc).core c.w.core).issues = (s.core c.w.core).issues ++ [(s.core c.w.core).markOf c.mark]) ∧
  (∀ (s : State) (w : Wave) (x : Cand), s.clk w.core.die < (w.pathAt x.split x.second w.inHandler).readyAt → s.ready w x = false)

/-! Arithmetic. -/

/-- R321: on 32-bit and 64-bit types, sums, differences and products are those of the registers modulo 2 to the width; saturation gives the nearest
value of the type, and a narrower result wraps to its type and is extended to 32 bits. -/
def Sys2Proof.Claims.IntegerValues : Prop :=
  (∀ a b : BitVec 32, ∀ t, t = .i32 ∨ t = .n32 →
    intFin t false (readInt t a.toNat + readInt t b.toNat) = (a + b).toNat ∧ intFin t false (readInt t a.toNat - readInt t b.toNat) = (a - b).toNat ∧
    intFin t false (readInt t a.toNat * readInt t b.toNat) = (a * b).toNat) ∧
  (∀ a b : BitVec 64, ∀ t, t = .i64 ∨ t = .n64 →
    intFin t false (readInt t a.toNat + readInt t b.toNat) = (a + b).toNat ∧ intFin t false (readInt t a.toNat - readInt t b.toNat) = (a - b).toNat ∧
    intFin t false (readInt t a.toNat * readInt t b.toNat) = (a * b).toNat) ∧
  (∀ (t : Ty) (x : Int), t.isInt = true →
    readInt t (intFin t true x) = max (if t.signed then -(2 ^ (t.bits - 1) : Int) else 0)
      (min (if t.signed then (2 ^ (t.bits - 1) : Int) - 1 else (2 ^ t.bits : Int) - 1) x) ∧
    (readInt t (intFin t false x) - x) % (2 ^ t.bits : Int) = 0 ∧
    (t.bits < 32 → intFin t false x = (BitVec.ofInt 32 (readInt t (intFin t false x))).toNat))

/-- R333, R361, R353, R300, R346: the bit operations, bit by bit. -/
def Sys2Proof.Claims.BitValues : Prop :=
  (∀ (n : Nat) (t : BitVec 8) (a b x k : Nat), k < n →
    (lop3Val n t a b x).testBit k =
      t.getLsbD ((if a.testBit k then 1 else 0) + 2 * (if b.testBit k then 1 else 0) + 4 * (if x.testBit k then 1 else 0))) ∧
  (∀ (a : BitVec 32) (n : Nat), shlVal 32 a.toNat n = (a <<< n).toNat ∧ shrVal 32 a.toNat n = (a >>> n).toNat ∧
    shraVal .i32 a.toNat n = (a.sshiftRight n).toNat ∧ rotVal 32 a.toNat n false = (a.rotateLeft n).toNat ∧
    rotVal 32 a.toNat n true = (a.rotateRight n).toNat) ∧
  (∀ (a k : Nat), k < 32 → (brevVal 32 a).testBit k = a.testBit (31 - k)) ∧
  (∀ (a b : BitVec 32) (sel : BitVec 16) (j : Nat), j < 4 → (sel.extractLsb' (4 * j) 4).toNat < 8 →
    prmtVal a.toNat b.toNat sel / 256 ^ j % 256 = (b ++ a).toNat / 256 ^ (sel.extractLsb' (4 * j) 4).toNat % 256)

namespace Sys2Proof.Claims

/-- The number that a value stands for; 0 for a NaN and an infinity. -/
def num : FVal → ℚ
  | .fin n m e => (if n then -1 else 1) * (m : ℚ) * 2 ^ e
  | _ => 0

/-- Whether a value is a number. -/
def isNum : FVal → Bool
  | .fin .. => true
  | _ => false

/-- The bits `r` are a number of the format next to `x` in a rounding mode: with .RN the nearest, an even one of two that are equally near. -/
def Nearest (f : FFmt) (rm : Rnd) (x : ℚ) (r : Nat) : Prop :=
  let v : Nat → ℚ := fun y => num (f.val y)
  let is : Nat → Prop := fun y => y < 2 ^ f.width ∧ isNum (f.val y) = true
  is r ∧ match rm with
    | .rd => v r ≤ x ∧ ∀ y, is y → v y ≤ x → v y ≤ v r
    | .ru => x ≤ v r ∧ ∀ y, is y → x ≤ v y → v r ≤ v y
    | .rz => |v r| ≤ |x| ∧ 0 ≤ v r * x ∧ ∀ y, is y → |v y| ≤ |x| → |v y| ≤ |v r|
    | .rn => ∀ y, is y → |v r - x| ≤ |v y - x| ∧ (|v y - x| = |v r - x| → v y ≠ v r → r % 2 = 0)

/-- `res` holds the bits of `x` rounded once to a format of IEEE 754 in a mode, with the sign `neg`, and the overflow (4) or the underflow (8) that it meets. -/
def Rounded (f : FFmt) (rm : Rnd) (neg : Bool) (x : ℚ) (res : Nat × Events) : Prop :=
  let top : ℚ := 2 ^ f.bias * (2 - 2 ^ (-(f.fb : ℤ)))
  let huge : ℚ := 2 ^ (f.bias + 1)
  let v := num (f.val res.1)
  (|x| ≤ top → Nearest f rm x res.1 ∧ (f.val res.1).neg = neg ∧ res.2 = if |v| < 2 ^ (1 - (f.bias : ℤ)) ∧ v ≠ x then 8 else 0) ∧
  (top < |x| →
    (rm = .rn → res = if |x| < (top + huge) / 2 then (f.maxBits neg, 0) else (f.infBits neg, 4)) ∧
    ((rm = .rz ∨ rm = if neg then .ru else .rd) → res = (f.maxBits neg, if |x| < huge then 0 else 4)) ∧
    ((rm = if neg then .rd else .ru) → res = (f.infBits neg, 4)))

/-- The formats of IEEE 754 and BF16 (R186). -/
def ieee (f : FFmt) : Prop := f = fp64 ∨ f = fp32 ∨ f = fp16 ∨ f = bf16

end Sys2Proof.Claims

/-- R186, R188, R192: what the bits of FP64, FP32, FP16 and BF16 stand for, which bits are the largest numbers, the infinities and the canonical NaNs, and how a flushed subnormal is
read. -/
def Sys2Proof.Claims.FloatFormats : Prop :=
  ∀ (f : FFmt), Claims.ieee f → ∀ (neg : Bool) (ex fr : Nat), ex < 2 ^ f.eb → fr < 2 ^ f.fb →
    let x := (if neg then 2 ^ (f.eb + f.fb) else 0) + ex * 2 ^ f.fb + fr
    let sgn : ℚ := if neg then -1 else 1
    (f.val x).neg = neg ∧
    (ex = 2 ^ f.eb - 1 → f.val x = if fr = 0 then .inf neg else .nan neg (decide (fr < 2 ^ (f.fb - 1)))) ∧
    (ex ≠ 2 ^ f.eb - 1 → Claims.isNum (f.val x) = true ∧
      (ex ≠ 0 → Claims.num (f.val x) = sgn * (1 + fr / 2 ^ f.fb) * 2 ^ ((ex : ℤ) - f.bias)) ∧
      (ex = 0 → Claims.num (f.val x) = sgn * (fr / 2 ^ f.fb) * 2 ^ (1 - (f.bias : ℤ)))) ∧
    f.val (f.infBits neg) = .inf neg ∧ f.val (f.nanBits neg) = .nan neg false ∧
    Claims.num (f.val (f.maxBits neg)) = sgn * (2 ^ f.bias * (2 - 2 ^ (-(f.fb : ℤ)))) ∧ Claims.isNum (f.val (f.maxBits neg)) = true ∧
    f.flushIn false x = x ∧ f.flushIn true x = (if ex = 0 then (if neg then 2 ^ (f.eb + f.fb) else 0) else x)

/-- R191 to R193, R310: sums, products and fused products of numbers are exact and rounded once in the mode; a sum that is exactly zero has the common sign of its terms, and else
is +0, or −0 under .RD; under a flush a subnormal result is a zero of its sign, with an underflow. -/
def Sys2Proof.Claims.FloatResults : Prop :=
  ∀ (f : FFmt) (rm : Rnd), Claims.ieee f → ∀ (a b c : FVal), Claims.isNum a = true → Claims.isNum b = true → Claims.isNum c = true →
    let x := Claims.num a
    let y := Claims.num b
    let z := Claims.num c
    let flush : Nat × Events → Nat × Events := fun r => if f.isSub r.1 then (f.signBit (f.val r.1).neg, r.2 ||| 8) else r
    let zero : Bool → Bool → Nat × Events := fun p q => (f.signBit (if p = q then p else rm == .rd), 0)
    Claims.Rounded f rm a.neg x (match a with | .fin n m e => f.round rm n m e | _ => (0, 0)) ∧
    (x + y ≠ 0 → Claims.Rounded f rm (decide (x + y < 0)) (x + y) (fAdd f rm false a b)) ∧
    (x + y = 0 → fAdd f rm false a b = zero a.neg b.neg) ∧
    (x * y ≠ 0 → Claims.Rounded f rm (a.neg != b.neg) (x * y) (fMul f rm false a b)) ∧
    (x * y = 0 → fMul f rm false a b = (f.signBit (a.neg != b.neg), 0)) ∧
    (x * y + z ≠ 0 → Claims.Rounded f rm (decide (x * y + z < 0)) (x * y + z) (fFma f rm false a b c)) ∧
    (x * y + z = 0 → fFma f rm false a b c = zero (a.neg != b.neg) c.neg) ∧
    fAdd f rm true a b = flush (fAdd f rm false a b) ∧ fMul f rm true a b = flush (fMul f rm false a b) ∧
    fFma f rm true a b c = flush (fFma f rm false a b c)

/-- R188, R193, R194: an operand that is a NaN gives the canonical NaN, with invalid (1) where one signals; so do infinities of unlike sign summed and zero times infinity, with invalid;
every NaN written counts (32). Other infinities stay. FMIN and FMAX give the operand that is no NaN, and else the lesser or greater, with −0 below +0. -/
def Sys2Proof.Claims.FloatSpecials : Prop :=
  ∀ (f : FFmt) (rm : Rnd) (ftz : Bool) (a b c : FVal),
    let nan : Bool → Nat × Events := fun inv => (f.nanBits false, if inv then 33 else 32)
    let isInf : FVal → Bool := fun v => v == .inf false || v == .inf true
    let isZero : FVal → Bool := fun v => match v with | .fin _ m _ => m == 0 | _ => false
    let clash := (isInf a && isZero b) || (isZero a && isInf b)
    let pneg := a.neg != b.neg
    ((a.isNan = true ∨ b.isNan = true) → fAdd f rm ftz a b = nan (a.sig || b.sig) ∧ fMul f rm ftz a b = nan (a.sig || b.sig)) ∧
    (a.isNan = false → b.isNan = false →
      (isInf a = true → isInf b = true → a ≠ b → fAdd f rm ftz a b = nan true) ∧
      (isInf a = true → (a = b ∨ isInf b = false) → fAdd f rm ftz a b = (f.infBits a.neg, 0)) ∧
      (isInf a = false → isInf b = true → fAdd f rm ftz a b = (f.infBits b.neg, 0)) ∧
      (clash = true → fMul f rm ftz a b = nan true) ∧
      ((isInf a = true ∨ isInf b = true) → clash = false → fMul f rm ftz a b = (f.infBits pneg, 0))) ∧
    ((a.isNan = true ∨ b.isNan = true ∨ c.isNan = true) → fFma f rm ftz a b c = nan (a.sig || b.sig || c.sig || clash)) ∧
    (a.isNan = false → b.isNan = false → c.isNan = false →
      (clash = true → fFma f rm ftz a b c = nan true) ∧
      ((isInf a = true ∨ isInf b = true) → clash = false → fFma f rm ftz a b c = if isInf c && c.neg != pneg then nan true else (f.infBits pneg, 0)) ∧
      (isInf a = false → isInf b = false → isInf c = true → fFma f rm ftz a b c = (f.infBits c.neg, 0))) ∧
    (Claims.ieee f → ∀ (x y : Nat) (max : Bool),
      let u := f.val x
      let v := f.val y
      let r := fMinMax f max x y
      (u.isNan = true → v.isNan = true → r = nan (u.sig || v.sig)) ∧
      (u.isNan = true → v.isNan = false → r = (y, if u.sig then 1 else 0)) ∧ (u.isNan = false → v.isNan = true → r = (x, if v.sig then 1 else 0)) ∧
      (Claims.isNum u = true → Claims.isNum v = true →
        (Claims.num u < Claims.num v → r = (if max then y else x, 0)) ∧ (Claims.num v < Claims.num u → r = (if max then x else y, 0)) ∧
        (Claims.num u = Claims.num v → u.neg ≠ v.neg → r = (if u.neg != max then x else y, 0))) ∧
      (u.isNan = false → v.isNan = false → (u = .inf true ∨ v = .inf false) → u ≠ v → r = (if max then y else x, 0)) ∧
      (u.isNan = false → v.isNan = false → (u = .inf false ∨ v = .inf true) → u ≠ v → r = (if max then x else y, 0)))

/-- R192, R195, R198, R307: conversions. Between two of FP64, FP32, FP16 and BF16, and from an integer, the value is rounded once; a NaN keeps its sign in the canonical NaN; a float goes to an
integer by rounding in the mode and clamping, where what does not fit and an infinity are invalid and a NaN gives 0; an integer to an integer wraps, or with saturation clamps. -/
def Sys2Proof.Claims.ConversionValues : Prop :=
  ∀ (dt st : Ty) (rm : Rnd) (sat fs fd : Bool) (x : Nat),
    let float : Ty → Bool := fun t => t == .f64 || t == .f32 || t == .f16 || t == .bf16
    let fmt := tyFmt dt
    let flush : Nat × Events → Nat × Events := fun r => if fd && fmt.isSub r.1 then (fmt.signBit (fmt.val r.1).neg, r.2 ||| 8) else r
    let a := (tyFmt st).val ((tyFmt st).flushIn fs (x % 2 ^ (tyFmt st).width))
    let r := cvtElem dt st rm sat fs fd x
    (st.isInt = true → float dt = true → ∃ u, r = flush u ∧ (readInt st x = 0 → u = (0, 0)) ∧
      (readInt st x ≠ 0 → Claims.Rounded fmt rm (decide (readInt st x < 0)) (readInt st x) u)) ∧
    (st.isInt = true → dt.isInt = true → r = (writeInt dt (if sat then max (minInt dt) (min (maxInt dt) (readInt st x)) else readInt st x), 0)) ∧
    (float st = true → float dt = true → st ≠ dt →
      (a.isNan = true → r = (fmt.nanBits a.neg, if a.sig then 33 else 32)) ∧ (∀ n, a = .inf n → r = (fmt.infBits n, 0)) ∧
      (Claims.isNum a = true → ∃ u, r = flush u ∧ Claims.Rounded fmt rm a.neg (Claims.num a) u)) ∧
    (float st = true → dt.isInt = true →
      (a.isNan = true → r = (0, 1)) ∧ (∀ n, a = .inf n → r = (writeInt dt (if n then minInt dt else maxInt dt), 1)) ∧
      (Claims.isNum a = true → ∃ v : ℤ,
        (match rm with
          | .rd => v = ⌊Claims.num a⌋
          | .ru => v = ⌈Claims.num a⌉
          | .rz => v = if Claims.num a < 0 then ⌈Claims.num a⌉ else ⌊Claims.num a⌋
          | .rn => 2 * |(v : ℚ) - Claims.num a| ≤ 1 ∧ (2 * |(v : ℚ) - Claims.num a| = 1 → v % 2 = 0)) ∧
        r = if minInt dt ≤ v ∧ v ≤ maxInt dt then (writeInt dt v, 0) else (writeInt dt (max (minInt dt) (min (maxInt dt) v)), 1)))

/-- R186, R188, R191 to R195, R198, R307, R310: what the bits of floats stand for, and what sums, products, fused products, minima, maxima and conversions
give. -/
def Obligations.FloatValues : Prop := Claims.FloatFormats ∧ Claims.FloatResults ∧ Claims.FloatSpecials ∧ Claims.ConversionValues

/-! Traps. -/

/-- R256, R258, R89, R81: taking a trap outside handler mode. The wave's results land; the record is written into the wave's image, where that page
is mapped, at the device level (R142), and the trap registers are set; the trapped split enters HANDLER and the others keep their states; the handler starts at the
handler PC of the launch record with its predicates false, no earlier than the spacing of the last instruction of its path lets it, and nothing else of the wave may issue. Operations, tokens, bindings, store
buffers and every wait and its limit stay, and no other byte of memory changes. -/
def Obligations.TrapEntry : Prop :=
  ∀ (s : State) (id : WaveId) (t : Trap) (w : Wave) (g : Grid), s.wave id = some w → w.inHandler = false → s.grid id.grid = some g →
    let u := s.takeTrap id t
    let p := (w.split t.split).path t.second
    ∃ x, u.wave id = some x ∧
      u = { s with waves := u.waves, mem := u.mem, d0held := u.d0held, l2 := u.l2, cores := u.cores, badLines := u.badLines, seq := u.seq } ∧
      x = { w.landAll with splits := x.splits, mode := .handler, hand := x.hand, record := t.record, trapcause := trapCauseWord t.record
                           trappc := t.trappc, trapaddr := t.record.addr } ∧
      x.lats = [] ∧ (t.split < w.splits.length → x.split t.split = { w.split t.split with st := .handler }) ∧ (∀ k, k ≠ t.split → x.split k = w.split k) ∧
      x.hand = some { split := t.split, second := t.second, prev := (w.split t.split).st, preds := 0
                      path := { pc := g.rec_.handler, mask := 1, readyAt := max p.readyAt (s.clkOf id + 1), yieldAt := p.yieldAt }
                      win := t.win, entered := some (s.clkOf id) } ∧
      (∀ y ∈ x.cands id, y = ⟨id, t.split, t.second⟩) ∧
      (∀ j, j ≠ id → u.wave j = s.wave j) ∧ (∀ c, u.core c = { s.core c with updq := (u.core c).updq }) ∧
      (∀ pa q, s.walk (s.spaceOf id.grid) (w.image + 0x40) = some (pa, q) →
        (∀ k, k < 64 → u.devRd (pa + k) = t.record.toBytes.getD k 0) ∧ (∀ a, (a < pa ∨ pa + 64 ≤ a) → u.devRd a = s.devRd a)) ∧
      (s.walk (s.spaceOf id.grid) (w.image + 0x40) = none → u = s.setWave id x)

/-- R258, R265, R3: the fields of %trapcause, and the 64 bytes of a fault record with the type, the sub-code, the PC and the address at
their places. -/
def Obligations.TrapFields : Prop :=
  ∀ r : FaultRecord, r.type < 256 → r.sub < 256 →
    ((trapCauseWord r).extractLsb' 0 8).toNat = r.type ∧ ((trapCauseWord r).extractLsb' 8 8).toNat = r.sub ∧
    ((trapCauseWord r).extractLsb' 16 6).toNat = (lowest r.mask).getD 0 ∧ ((trapCauseWord r).extractLsb' 22 2).toNat = r.field.code ∧
    ((trapCauseWord r).extractLsb' 24 2).toNat = r.split % 4 ∧ (trapCauseWord r).extractLsb' 26 6 = 0 ∧
    r.toBytes.length = 64 ∧ (r.toBytes.getD 0 0).toNat = r.type ∧ (r.toBytes.getD 1 0).toNat = r.sub ∧
    (∀ k, k < 8 → r.toBytes.getD (24 + k) 0 = r.pc.extractLsb' (8 * k) 8 ∧ r.toBytes.getD (32 + k) 0 = r.mask.extractLsb' (8 * k) 8 ∧
      r.toBytes.getD (40 + k) 0 = r.addr.extractLsb' (8 * k) 8)

/-- R260: a trap in handler mode is not taken. The wave's results land and the wave halts; the HALTED record has cause DOUBLE, and its detail
the inner cause and sub-code and the cause of the trap being handled. No path of the wave may issue, and its trap registers stay. -/
def Sys2Proof.Claims.DoubleTrap : Prop :=
  ∀ (s : State) (id : WaveId) (t : Trap) (w : Wave), s.wave id = some w → w.inHandler = true →
    ∃ r n, (s.takeTrap id t).wave id = some { w.landAll with mode := .halted true t.split t.second } ∧
      (s.takeTrap id t).records = s.records ++ [(n, r)] ∧ r.type = 0x10 ∧ r.pc = t.record.pc ∧
      r.detail = BitVec.ofNat 128 (t.cause.code + 256 * t.record.sub + 65536 * (w.trapcause.truncate 8).toNat) ∧
      (∀ x, (s.takeTrap id t).wave id = some x → x.runs = false ∧ x.cands id = []) ∧
      (∀ j, j ≠ id → (s.takeTrap id t).wave j = s.wave j) ∧ (s.takeTrap id t).ops = s.ops

/-- R259, R260, R89, R81: the end of a handler. Its results land and its predicates are discarded; the trapped split takes its earlier state, or
becomes RUNNING if it was FAULTED, with the path at the PC given, which keeps the spacing of its own last instruction and that of the handler's; the others keep theirs. A trap saved as pending is then taken. -/
def Sys2Proof.Claims.HandlerEnds : Prop :=
  ∀ (s : State) (id : WaveId) (pc : DWord) (w : Wave) (h : Handler), s.wave id = some w → w.hand = some h → h.split < w.splits.length →
    (w.pending = none → ∃ x, (s.endHandler id pc).wave id = some x ∧ s.endHandler id pc = s.setWave id x ∧
      x = { w.landAll with splits := x.splits, mode := .running, hand := none, resume := x.resume } ∧ x.lats = [] ∧
      (x.split h.split).st = (if h.prev = .faulted then .running else h.prev) ∧ (x.split h.split).stack = (w.split h.split).stack ∧
      (h.second = false → (x.split h.split).p1.pc = pc ∧ (x.split h.split).p1.mask = (w.split h.split).p1.mask ∧
        (x.split h.split).p1.readyAt = max (w.split h.split).p1.readyAt (max h.path.readyAt (s.clkOf id + 1)) ∧
        (x.split h.split).p2 = (w.split h.split).p2) ∧
      (∀ p, h.second = true → (w.split h.split).p2 = some p → ∃ q, (x.split h.split).p2 = some q ∧ q.pc = pc ∧ q.mask = p.mask ∧
        q.readyAt = max p.readyAt (max h.path.readyAt (s.clkOf id + 1)) ∧ (x.split h.split).p1 = (w.split h.split).p1) ∧
      (∀ k, k ≠ h.split → x.split k = w.split k) ∧
      (∀ r ∈ x.resume, r ∈ w.resume ∧ (r.split = h.split → r.lanes = ((w.split h.split).path h.second).mask → r.pc = pc))) ∧
    (∀ t, w.pending = some t → ∃ x, (s.endHandler id pc).wave id = some x ∧ x.mode = .handler ∧ x.pending = none ∧ x.record = t.record ∧
      x.trappc = t.trappc)

/-- R89, R259, R260: a trap in handler mode, and the end of a handler. That the record of DOUBLE bears the PC of the handler's instruction is the model's
reading (log entry 32). -/
def Obligations.HandlerRules : Prop := Claims.DoubleTrap ∧ Claims.HandlerEnds

/-- R373: TRAP. Its opcode is 0x2C0, its operand and modifier fields are zero, and its immediate field holds the code; it is never privileged, and
passes every check before its meaning. Where its guard selects a lane, the split takes a SOFT trap after it: %trappc is the next instruction's
PC, %trapaddr the code, and the record's lane mask the selected lanes, with no field. With no lane selected it does nothing; in handler mode the wave
halts under DOUBLE, with inner cause SOFT.
That the record bears the PC of the TRAP is the model's reading (log entry 53). -/
def Obligations.SoftTrap : Prop :=
  ∀ (h : Hdr) (code : BitVec 20),
    (Instr.trap h code).fields = { op := 0x2C0, gneg := h.guard.neg, gp := h.guard.p, d := 0, a := 0, b := 0, mods := 0, imm := code
                                   hres := 0, ru := h.ru, y := h.y, st := h.st } ∧
    (∀ s c, State.issuer s = some c → entryTrap (.trap h code) (c.guard (.trap h code)) = none) ∧
    ∀ s c, s.clears (.trap h code) = some c →
      (c.sel = 0 → exec (.trap h code) s = .next ((s.beginIssue c.id).issued (.trap h code) c (nextPc c.pc))) ∧
      (c.sel ≠ 0 → c.hand = true → ∃ (t : State) (x : Wave) (r : FaultRecord) (n : Nat), exec (.trap h code) s = .next t ∧ t.wave c.id = some x ∧
        x.mode = .halted true c.split c.second ∧ x.runs = false ∧ t.records = s.records ++ [(n, r)] ∧ r.type = 0x10 ∧ r.detail.extractLsb' 0 8 = 0x0B) ∧
      (c.sel ≠ 0 → c.hand = false → ∃ (t : Trap) (u : State) (x : Wave), exec (.trap h code) s = .next u ∧
        u = ((s.beginIssue c.id).issued (.trap h code) c (nextPc c.pc)).takeTrap c.id t ∧ u.wave c.id = some x ∧ x.mode = .handler ∧
        x.trappc = nextPc c.pc ∧ x.trapaddr = code.zeroExtend 64 ∧ x.record.mask = c.sel ∧ x.record.field = .none ∧ x.record.type = 0x0B ∧
        x.record.sub = 0 ∧ x.record.pc = c.pc)

/-- R374, R260: TRET in handler mode ends the handler at %trappc where its guard selects the handler's lane; with %trappc not well formed it is an
instruction that would trap MISALIGN; outside handler mode it is ILLEGAL, OPERAND_RANGE. HALT halts the wave, and its HALTED record is
sent; its path keeps the spacing and the yield of the HALT (R81, R82).
That the HALTED record bears the PC of the handler's instruction is the model's reading (log entry 32), and so are the masks of the ILLEGAL and MISALIGN traps
(log entry 53). -/
def Obligations.TrapReturnAndHalt : Prop :=
  ∀ (h : Hdr) s c,
    (s.clears (.tret h) = some c →
      (c.hand = false → Claims.Traps (.tret h) s c .illegal 9 .none c.mask 0) ∧
      (c.hand = true → c.sel = 0 → exec (.tret h) s = .next ((s.beginIssue c.id).issued (.tret h) c (nextPc c.pc))) ∧
      (c.hand = true → c.sel ≠ 0 → pcOk c.w.trappc = false → Claims.Traps (.tret h) s c .misalign 0 .none c.mask c.w.trappc) ∧
      (c.hand = true → c.sel ≠ 0 → pcOk c.w.trappc = true →
        exec (.tret h) s = .next (((s.beginIssue c.id).issued (.tret h) c c.pc).endHandler c.id c.w.trappc))) ∧
    (s.clears (.halt h) = some c →
      (c.sel = 0 → exec (.halt h) s = .next ((s.beginIssue c.id).issued (.halt h) c (nextPc c.pc))) ∧
      (c.sel ≠ 0 → ∃ t x r n, exec (.halt h) s = .next t ∧ t.wave c.id = some x ∧ x.mode = .halted c.hand c.split c.second ∧
        x.runs = false ∧ t.records = s.records ++ [(n, r)] ∧ r.type = 0x29 ∧ r.pc = c.pc ∧ t.ops = s.ops ∧ x.toks = c.w.toks ∧ x.wins = c.w.wins ∧
        (x.pathAt c.split c.second c.hand).pc = c.pc ∧ (x.pathAt c.split c.second c.hand).readyAt = c.now + max h.st.toNat 1 ∧
        (x.pathAt c.split c.second c.hand).yieldAt = if h.y then some (c.now + max h.st.toNat 1) else none))

namespace Sys2Proof.Claims

open Sys2Proof.Machine

/-- An access through window `n` of `size` bytes in the lanes `ls` at their offsets: an unbound lane traps WINDOW_CLOSED, else a recalled one
WINDOW_RECALLED, else one whose bytes do not lie aligned within its line MISALIGN, with the address of the lowest, else a write through a
read-only binding XLATE; each with the lanes that fail. Where none does, `ok` holds. -/
def Window (i : Instr) (n : BitVec 4) (ls : Ctx → List Nat) (off : Ctx → Nat → Nat) (size : Nat) (wr : Bool) (ok : State → Ctx → Prop) : Prop :=
  ∀ s c, s.clears i = some c →
    let at_ : Nat → Binding := fun l => c.w.bind l n.toNat
    let un := maskOf ((ls c).filter fun l => (at_ l).st == .unbound)
    let re := maskOf ((ls c).filter fun l => (at_ l).st == .recalled)
    let mi := maskOf ((ls c).filter fun l => decide (127 < off c l ∨ 128 < (at_ l).addr.toNat % 128 + off c l + size ∨
      ((at_ l).addr.toNat % 128 + off c l) % size ≠ 0))
    let ro := maskOf ((ls c).filter fun l => wr && !(at_ l).write)
    (un ≠ 0 → Traps i s c .windowClosed 0 .a un 0) ∧
    (un = 0 → re ≠ 0 → Traps i s c .windowRecalled 0 .a re 0) ∧
    (un = 0 → re = 0 → mi ≠ 0 → Traps i s c .misalign 0 .a mi
      ((at_ ((lowest mi).getD 0)).addr + BitVec.ofNat 64 (off c ((lowest mi).getD 0)))) ∧
    (un = 0 → re = 0 → mi = 0 → ro ≠ 0 → Traps i s c .xlate 0 .a ro 0) ∧
    (un = 0 → re = 0 → mi = 0 → ro = 0 → ok s c)

/-- A load: a plain one reads, in each lane, the wave's store buffer first and then what lies beneath, traps DATA_ERROR where a byte is
uncorrectable, and writes its registers after 8 clocks; a strong one goes in flight. -/
def Load (i : Instr) (scalar : Bool) (d : Nat) (n : BitVec 4) (off : Opnd) (ty : Ty) (size : Nat) (acc : Acc) (ls : Ctx → List Nat)
    (after : Ctx → State → State) : Prop :=
  Window i n ls (fun c l => raw c off 1 l) size false fun s c =>
    let accs := (ls c).map fun l => c.place n.toNat l (raw c off 1 l)
    let t := s.beginIssue c.id
    match acc with
    | .sc k => exec i s = .next ((if accs = [] then t else t.addOp (c.newOp t (.strongLoad k.toNat accs ty size scalar d))).issued i c (nextPc c.pc))
    | _ =>
      ((∃ a ∈ accs, (c.plainRead t a size).2 = true) → Traps i s c .dataError 0 .a c.mask 0) ∧
      ((∀ a ∈ accs, (c.plainRead t a size).2 = false) → exec i s = .next ((after c (if accs = [] then t else
        c.fix t 8 (loadWrites scalar d ty size (accs.map fun a => (a.lane, (c.plainRead t a size).1))))).issued i c (nextPc c.pc)))

/-- A store: a plain one puts its bytes into the wave's store buffer; a strong one goes in flight, and takes its bytes out of that buffer when it
performs, but for those that the wave has stored to since. -/
def Store (i : Instr) (scalar : Bool) (d : Nat) (n : BitVec 4) (off : Opnd) (ty : Ty) (size : Nat) (acc : Acc) (ls : Ctx → List Nat) : Prop :=
  Window i n ls (fun c l => raw c off 1 l) size true fun s c =>
    let as_ := (ls c).map fun l => (c.place n.toNat l (raw c off 1 l), c.w.storeBytes scalar d ty size l)
    let t := s.beginIssue c.id
    exec i s = .next ((if as_ = [] then t else match acc with
      | .sc k => t.addOp { c.newOp t (.strongStore k.toNat (as_.map fun x => { x.1 with bytes := x.2 })) with
          watch := watchOf (as_.map fun x => (x.1, x.2.length)) }
      | _ => t.storeWave c.id as_).issued i c (nextPc c.pc))

/-- An access of the pantry: a lane whose bytes do not lie aligned within its share traps MISALIGN, with the lanes that fail and the sum of
the lowest; where none does, `ok` holds of the offsets. -/
def Pantry (i : Instr) (a : Opnd) (disp : BitVec 20) (size : Nat) (ok : State → Ctx → List (Nat × Nat) → Prop) : Prop :=
  ∀ s c, s.clears i = some c →
    let sum : Nat → Int := fun l => (raw c a 1 l : Int) + disp.toInt
    let bad := c.lanes.filter fun l => decide (sum l < 0 ∨ sum l % (size : Int) ≠ 0 ∨ (8192 * c.grid.rec_.share : Int) < sum l + size)
    (∀ l r, bad = l :: r → Traps i s c .misalign 0 .a (maskOf bad) (BitVec.ofInt 64 (sum l))) ∧
    (bad = [] → ok s c (c.lanes.map fun l => (l, (sum l).toNat)))

end Sys2Proof.Claims

/-! Windows and the pantry. -/

/-- R133, R134, R379: CLOSE makes its lanes' bindings UNBOUND, in handler mode those of the trapped split; WQUERY writes, after 4 clocks, the bound address or the state, the base offset and
whether writes are permitted. -/
def Sys2Proof.Claims.CloseAndQuery : Prop :=
  (∀ (h : Hdr) (n : BitVec 4), Claims.Does (.close h n) fun c s =>
    if c.sel = 0 then s else s.modWave c.id fun w => w.close (if c.hand then c.trapped else c.sel) n.toNat) ∧
  (∀ (w : Wave) (m : Lanes) (n l k : Nat), n < 16 → k < 16 → l < 64 →
    (w.close m n).bind l k = (if k = n ∧ m.getLsbD l = true then {} else w.bind l k) ∧ w.close m n = { w with wins := (w.close m n).wins }) ∧
  (∀ (h : Hdr) (d : BitVec 8) (n : BitVec 4),
    Claims.Lanewise (.wquery h d n true) d 2 4 (fun c l => match (c.w.bind l n.toNat).st with | .unbound => 0 | _ => (c.w.bind l n.toNat).addr.toNat) ∧
    Claims.Lanewise (.wquery h d n false) d 1 4 (fun c l => match (c.w.bind l n.toNat).st with
      | .unbound => 0
      | .bound | .pending => (if (c.w.bind l n.toNat).write then 0x200 else 0) + 0x80 + (c.w.bind l n.toNat).addr.toNat % 128
      | .recalled => (if (c.w.bind l n.toNat).write then 0x200 else 0) + 0x100 + (c.w.bind l n.toNat).addr.toNat % 128))

/-- R121, R122, R125, R139, R140, R150, R237: OPEN makes its lanes' bindings UNBOUND, its path waits for it, and it translates, charges and binds as far
as it can at once; fetch is suspended while a translation waits for the host. With no lane it writes OK. REOPEN does so for the selected
lanes, in handler mode those of the trapped split, whose binding is RECALLED, and writes NO_EFFECT where none is. REOPEN.TRAP takes the window of the
trap, and writes NO_EFFECT where its cause is not WINDOW_RECALLED. An operation that ends at once counts while an earlier one of its path is in
flight. -/
def Sys2Proof.Claims.OpenAndReopen : Prop :=
  ∀ (h : Hdr) (n : BitVec 4) (a : Opnd) (st : BitVec 7) (rd : BitVec 2) (ro : Bool) (pd : BitVec 3) (tmo : BitVec 5) s c,
    let trapped : Lanes := (c.w.split c.split).p1.mask ||| (match (c.w.split c.split).p2 with | some p => p.mask | none => 0)
    let goes : Instr → State → OpenOp → Prop := fun i t x =>
      let u := ((t.addOp (c.newOp t (.open x))).park c (.op t.nextOp)).openLook t.nextOp
      let v := if x.reopen = false ∧ (((u.op t.nextOp).bind Op.openOf).map fun y => y.todo) ≠ some [] ∧ ((u.op t.nextOp).bind Op.openOf).isSome
        then u.modWave c.id fun w => { w with hold := some t.nextOp } else u
      exec i s = .next ((v.issued i c (nextPc c.pc)).openSettle c.id)
    let ends : Instr → State → OpenOp → Nat → Prop := fun i t x code =>
      exec i s = .next (((t.putS c.id st (status code 0)).addDone (c.newOp t (.open x))).issued i c (nextPc c.pc))
    let open_ : OpenOp := { reopen := false, win := n, lanes := c.sel, todo := c.lanes.map fun l => (l, BitVec.ofNat 64 (Claims.raw c a 2 l)), lines := []
                            st := st, pd := pd, write := !ro, rd := rd, deadline := c.now + 2 ^ tmo.toNat }
    let again : BitVec 4 → List Nat → OpenOp := fun k ls =>
      { reopen := true, win := k, lanes := maskOf ls, todo := ls.map fun l => (l, (c.w.bind l k.toNat).addr), lines := [], checked := true
        st := st, pd := 7, write := false, rd := (c.w.bind (ls.headD 0) k.toNat).rd, deadline := c.now + 2 ^ tmo.toNat }
    (s.clears (.open h n a st rd ro pd tmo) = some c →
      (c.sel = 0 → ends (.open h n a st rd ro pd tmo) (s.beginIssue c.id) open_ cOK) ∧
      (c.sel ≠ 0 → goes (.open h n a st rd ro pd tmo) ((s.beginIssue c.id).modWave c.id fun w => w.close c.sel n.toNat) open_)) ∧
    (∀ i m k, (i = .reopen h n st tmo ∧ m = (if c.hand then trapped else c.sel) ∧ k = n) ∨
        (i = .reopenTrap h st tmo ∧ m = trapped ∧ c.hand = true ∧ c.w.record.type = 5 ∧ ∃ x q, c.w.hand = some x ∧ x.win = some q ∧ k = BitVec.ofNat 4 q) →
      s.clears i = some c →
      let ls := (lanesOf m).filter fun l => (c.w.bind l k.toNat).st == .recalled
      (ls = [] → ends i (s.beginIssue c.id) (again k []) cNO_EFFECT) ∧ (ls ≠ [] → goes i (s.beginIssue c.id) (again k ls))) ∧
    (s.clears (.reopenTrap h st tmo) = some c → c.hand = false → Claims.Traps (.reopenTrap h st tmo) s c .priv 0 .none c.mask 0) ∧
    (s.clears (.reopenTrap h st tmo) = some c → c.hand = true → c.w.record.type ≠ 5 →
      ends (.reopenTrap h st tmo) (s.beginIssue c.id) (again 0 []) cNO_EFFECT)

/-- R121, R122, R125, R133, R134, R139, R140, R150, R379: OPEN, CLOSE, REOPEN and WQUERY at issue. That the PRIV trap of REOPEN.TRAP has no field and the
path's lanes as its mask is the model's reading (log entry 53). -/
def Obligations.WindowInstructions : Prop := Claims.CloseAndQuery ∧ Claims.OpenAndReopen

/-- R121, R139, R137: a line obtained for an OPEN binds the lanes that wait for it, at the OPEN's address with its permission and reuse distance; a
REOPEN binds only lanes still RECALLED, with what the binding had. A recall of a line at a core makes every BOUND binding of it there RECALLED,
keeps its address and permission, and takes the line from the line store; no other binding changes. -/
def Obligations.BindingRules : Prop :=
  (∀ (w : Wave) (o : OpenOp) (l j k : Nat) (addr : DWord) (line : Nat), l < 64 → j < 64 → k < 16 →
    (w.bindLane o l addr line).bind j k =
      if j = l ∧ k = o.win.toNat then
        (if o.reopen then (if (w.bind l k).st = .recalled then { w.bind l k with st := .bound, line := line } else w.bind l k)
         else { st := .bound, addr := addr, line := line, write := o.write, rd := o.rd })
      else w.bind j k) ∧
  (∀ (s : State) (cid : CoreId) (line : Nat), (tget (s.core cid).store line).isSome = true → ((s.core cid).store.map Prod.fst).Nodup →
    tget ((s.recall cid line).core cid).store line = none ∧
    (∀ id w, s.wave id = some w → ∃ x, (s.recall cid line).wave id = some x ∧ x = { w with wins := x.wins } ∧
      ∀ l k, x.bind l k = if w.resident = true ∧ w.core = cid ∧ (w.bind l k).st = .bound ∧ (w.bind l k).line = line
        then { w.bind l k with st := .recalled, line := 0 } else w.bind l k))

/-- R129, R130, R131, R330, R331, R370: the loads and stores through windows, vector and scalar. -/
def Sys2Proof.Claims.WindowAccesses : Prop :=
  ∀ (h : Hdr) (d : BitVec 8) (sd : BitVec 7) (n : BitVec 4) (off : Opnd) (ty : Ty) (size : BitVec 3) (acc : Acc),
    Claims.Load (.ldw h d n off ty size acc) false d.toNat n off ty (2 ^ size.toNat) acc
      (fun c => match acc with | .chk _ => c.lanes.filter fun l => (c.w.bind l n.toNat).st == .bound | _ => c.lanes)
      (fun c t => match acc with
        | .chk p => c.fix t 8 (predWrites p.toNat (c.lanes.map fun l => (l, (c.w.bind l n.toNat).st == .bound)))
        | _ => t) ∧
    ((∀ p, acc ≠ .chk p) →
      Claims.Load (.ldws h sd n off ty size acc) true sd.toNat n off ty (2 ^ size.toNat) acc (fun c => c.lanes.take 1) (fun _ t => t) ∧
      Claims.Store (.stw h d n off ty size acc) false d.toNat n off ty (2 ^ size.toNat) acc Ctx.lanes ∧
      Claims.Store (.stws h sd n off ty size acc) true sd.toNat n off ty (2 ^ size.toNat) acc (fun c => c.lanes.take 1))

/-- R152, R153: bytes that a wave stores plainly are what its later plain reads of them see, on whatever core it runs; every other byte of that line,
and every byte of another line, reads as before, and every other wave reads as before. Memory beneath the buffers is not written, unless the spill
of the buffer finds no context page and sends a record. -/
def Obligations.StoreThenLoad : Prop :=
  ∀ (s : State) (id : WaveId) (w : Wave) (a : LaneAcc) (bs : List Byte) (cid : CoreId), s.wave id = some w →
    let t := s.storeWave id [(a, bs)]
    (∀ k, k < bs.length → (t.plainByte id cid (a.va / 128) (a.pa / 128) (a.pa % 128 + k)).1 = bs.getD k 0) ∧
    (∀ off, (off < a.pa % 128 ∨ a.pa % 128 + bs.length ≤ off) →
      t.plainByte id cid (a.va / 128) (a.pa / 128) off = s.plainByte id cid (a.va / 128) (a.pa / 128) off) ∧
    (∀ va pa off, va ≠ a.va / 128 → pa ≠ a.pa / 128 → t.plainByte id cid va pa off = s.plainByte id cid va pa off) ∧
    (∀ j va pa off, j ≠ id → t.plainByte j cid va pa off = s.plainByte j cid va pa off) ∧
    (t.mem = s.mem ∨ ∃ n r, t.records = s.records ++ [(n, r)] ∧ r.type = 0x2A)

/-- R328, R369: LDL reads its share of the pantry and writes its registers after 10 clocks, or traps DATA_ERROR where a byte is uncorrectable; STL
writes its share at once, and where lanes meet the byte of the highest stands; no other byte of the share and no other share changes. -/
def Sys2Proof.Claims.PantryAccesses : Prop :=
  (∀ (h : Hdr) (d : BitVec 8) (a : Opnd) (disp : BitVec 20) (ty : Ty) (size : BitVec 3),
    Claims.Pantry (.ldl h d a disp ty size) a disp (2 ^ size.toNat) (fun s c os =>
      let t := s.beginIssue c.id
      let sh := t.share c.id.grid c.id.block (t.shareOf c.id)
      ((∃ x ∈ os, ∃ k, k < 2 ^ size.toNat ∧ x.2 + k ∈ sh.bad) → Claims.Traps (.ldl h d a disp ty size) s c .dataError 0 .a c.mask 0) ∧
      ((∀ x ∈ os, ∀ k, k < 2 ^ size.toNat → x.2 + k ∉ sh.bad) → exec (.ldl h d a disp ty size) s = .next ((if os = [] then t else
        c.fix t 10 (loadWrites false d.toNat ty (2 ^ size.toNat)
          (os.map fun x => (x.1, (List.range (2 ^ size.toNat)).map fun k => sget 0 sh.bytes (x.2 + k))))).issued (.ldl h d a disp ty size) c (nextPc c.pc)))) ∧
    Claims.Pantry (.stl h d a disp ty size) a disp (2 ^ size.toNat) (fun s c os =>
      let t := s.beginIssue c.id
      let u := t.modWave c.id fun w => { w with stls := c.w.stls + 1 }
      exec (.stl h d a disp ty size) s = .next ((if os = [] then t else u.pantryWrite c.id.grid c.id.block (t.shareOf c.id)
          (c.id.wave, c.w.stls + 1) (os.flatMap fun x =>
        (List.range (c.w.storeBytes false d.toNat ty (2 ^ size.toNat) x.1).length).map fun k =>
          (x.2 + k, (c.w.storeBytes false d.toNat ty (2 ^ size.toNat) x.1).getD k 0))).issued (.stl h d a disp ty size) c (nextPc c.pc)))) ∧
  (∀ (s : State) (g b k : Nat) (x : Block) (by_ : Nat × Nat) (cells : Cells), s.block g b = some x → k < x.shares.length →
    (∀ o, sget 0 ((s.pantryWrite g b k by_ cells).share g b k).bytes o =
      match cells.reverse.find? fun e => e.1 == o with | some e => e.2 | none => sget 0 (s.share g b k).bytes o) ∧
    (∀ j, j ≠ k → (s.pantryWrite g b k by_ cells).share g b j = s.share g b j) ∧
    (∀ p, p ≠ (g, b) → tget (s.pantryWrite g b k by_ cells).blocks p = tget s.blocks p) ∧ (s.pantryWrite g b k by_ cells).mem = s.mem)

/-- R129 to R131, R328, R330, R331, R369, R370: loads and stores through windows and of the pantry. That the MISALIGN of a pantry access has the failing
lanes and field A, and DATA_ERROR field A and the path's lanes, is the model's reading (log entry 53). -/
def Obligations.LoadsAndStores : Prop := Claims.WindowAccesses ∧ Claims.PantryAccesses

/-- R249, R250, R251, R254, R305: CSTW. A resume index at or beyond its elements ends it; its checks are those of its binding lane; the elements that
fit go through its own binding and the rest through the continuation binding, or, where that is not BOUND and writable, it traps CSTW_PARTIAL
after the prefix, with the resume index kept for its return.
That the resume index is kept with the split, the lanes and the PC of the CSTW, and that the mask of CSTW_PARTIAL is the selected lanes, is the model's
reading (log entry 76). -/
def Obligations.ContinuedStores : Prop :=
  ∀ (h : Hdr) (d : BitVec 8) (n cw : BitVec 4) (off : Opnd) (ty : Ty) s c, s.clears (.cstw h d n off ty cw) = some c →
    let i := Instr.cstw h d n off ty cw
    let q := c.resumeIx.getD 0
    let l := (lowest c.mask).getD 0
    let o := Claims.raw c off 1 l
    let b := c.w.bind l n.toNat
    let k := c.w.bind l cw.toNat
    let base := b.addr.toNat % 128 + o
    let detail := BitVec.ofNat 128 q
    let trap : Cause → DWord → Prop := fun cause addr => exec i s = .next (s.takeTrap c.id
      { c.exact cause 0 .a (BitVec.twoPow 64 l) addr with
        record := { (c.exact cause 0 .a (BitVec.twoPow 64 l) addr).record with detail := detail }, win := some n.toNat })
    let t := s.beginIssue c.id
    let el := (List.range c.lanes.length).drop q
    let fits := el.filter fun j => decide (base + j * ty.bytes + ty.bytes ≤ 128)
    let rest := el.filter fun j => decide (128 < base + j * ty.bytes + ty.bytes)
    let bytes : Nat → List Byte := fun j => leBytes ty.bytes (c.w.regs false d.toNat ty.regs (c.lanes.getD j 0))
    let put : Binding → Nat → LaneAcc := fun x p => { lane := l, va := x.addr.toNat - x.addr.toNat % 128 + p, pa := 128 * x.line + p }
    let t1 := if fits = [] then t else t.storeWave c.id (fits.map fun j => (put b (base + j * ty.bytes), bytes j))
    (c.lanes.length ≤ q → exec i s = .next ((c.clearResume t).issued i c (nextPc c.pc))) ∧
    (q < c.lanes.length →
      (b.st = .unbound → trap .windowClosed 0) ∧
      (b.st = .recalled → trap .windowRecalled 0) ∧
      (b.st = .bound → b.write = false → trap .xlate 0) ∧
      (b.st = .bound → b.write = true → (127 < o ∨ base % ty.bytes ≠ 0 ∨ 256 < base + c.lanes.length * ty.bytes) →
        trap .misalign (b.addr + BitVec.ofNat 64 o)) ∧
      (b.st = .bound → b.write = true → ¬(127 < o ∨ base % ty.bytes ≠ 0 ∨ 256 < base + c.lanes.length * ty.bytes) →
        (rest = [] → exec i s = .next ((c.clearResume t1).issued i c (nextPc c.pc))) ∧
        (rest ≠ [] → k.st = .bound → k.write = true → exec i s =
          .next ((c.clearResume (t1.storeWave c.id (rest.map fun j => (put k (base + j * ty.bytes - 128), bytes j)))).issued i c (nextPc c.pc))) ∧
        (rest ≠ [] → (k.st ≠ .bound ∨ k.write = false) → ∃ x,
          exec i s = .next ((((c.clearResume t1).modWave c.id fun w =>
            { w with resume := w.resume ++ [{ split := c.split, lanes := c.mask, pc := c.pc, q := q + fits.length }] }).issued i c c.pc).takeTrap c.id x) ∧
          x.cause = .cstwPartial ∧ x.trappc = c.pc ∧ x.record.mask = c.sel ∧ x.record.type = 0x0E ∧
          x.record.detail = BitVec.ofNat 128 (q + fits.length + 2 ^ 32 * cw.toNat + 2 ^ 40 * (match k.st with | .unbound => 0 | .bound | .pending => 1 | .recalled => 2)))))

/-! Commits, atomics and barriers. -/

/-- R154, R155, R157, R158, R169, R323: at issue, COMMIT drains its wave's own records of scope wave and takes the wave's store buffer with it; ABORT.WAVE
empties the buffer at once, and discards what COMMITs in flight have taken from it and not moved (the model's reading, log entry 66), and the other ABORTs go in flight; ACQUIRE parks its path until it completes; IFENCE empties its core's fetch
buffers. None does anything where its guard selects no lane. -/
def Sys2Proof.Claims.CommitInstructions : Prop :=
  ∀ (h : Hdr) (st : BitVec 7) (level : BitVec 3) (strict : Option (BitVec 7)),
    Claims.Does (.commit h st level strict) (fun c s =>
      let k := ({ s := s } : Carry).drain (c.newOp s (.commit level.toNat strict st [])) 0
      if c.sel = 0 then s else c.note ((k.s.modWave c.id fun w => { w with wbuf := [] }).addOp
        { c.newOp s (.commit level.toNat strict st (((k.s.wave c.id).map Wave.wbuf).getD [])) with pre := (k.faulted, k.offline) })
        (k.events.map fun e => ((lowest c.sel).getD 0, e))) ∧
    Claims.Does (.abort h st level) (fun c s =>
      if c.sel = 0 then s
      else if level = 0 then
        let u : State := { s with ops := s.ops.map fun (o : Op) => match o.kind with
          | .commit n q r _ => if o.wave = c.id then { o with kind := .commit n q r [] } else o
          | _ => o }
        ((u.modWave c.id fun w => { w with wbuf := [] }).putS c.id st (status cOK 0)).trimSpill c.w.core
      else s.addOp (c.newOp s (.abort level.toNat st))) ∧
    Claims.Does (.acquire h st level) (fun c s =>
      if c.sel = 0 then s else (s.addOp (c.newOp s (.acquire level.toNat st none false 0))).park c (.op s.nextOp)) ∧
    Claims.Does (.ifence h) (fun c s => if c.sel = 0 then s else s.modCore c.w.core fun k => { k with fetch := [] })

/-- R155, R156, R159, R162, R304: a COMMIT completes once every earlier outbound access and strong load of its wave has performed, and no page it must
translate again waits for the host. A .STRICT one whose level's generation is no longer the one its wave recorded, or which conflicts, moves nothing:
what it carried returns beneath what the wave has stored since, and goes with a later COMMIT in flight where that has taken it (an ABORT.WAVE has discarded what it carried: log
entry 66), and its status is PARENT_CHANGED, or CONFLICT with the number of conflicting
bytes and the first of them; one that finds nothing in the buffers to carry meets no conflict. Every other moves its deltas, counts the events of each record it drains (log entry 80), and its status is FAULTED, else DIE_OFFLINE, else OK with the number of conflicting bytes. -/
def Sys2Proof.Claims.CommitCompletes : Prop :=
  ∀ (s : State) (o : Op) (w : Wave) (b : Block) (g : Group) (level : Nat) (strict : Option (BitVec 7)) (st : BitVec 7) (snap : List Delta),
    s.op o.id = some o → o.kind = .commit level strict st snap → s.wave o.wave = some w → s.block o.wave.grid o.wave.block = some b →
    s.group o.wave.grid (s.groupOf o.wave.grid o.wave.block) = some g →
    let changed := b.gen ≠ w.recBlock.1 ∨ (2 ≤ level ∧ g.gen ≠ w.recCluster.1)
    let later := (s.ops.dropWhile fun x => x.id != o.id).tail.find? fun x =>
      x.wave == o.wave && !x.done && (match x.kind with | .commit .. => true | _ => false)
    let back := match later with
      | some x => s.modOp x.id fun y => (match y.kind with
        | .commit n q r d => { y with kind := .commit n q r (d.foldl bufPut snap) }
        | _ => y)
      | none => s.modWave o.wave fun w => { w with wbuf := w.wbuf.foldl bufPut snap }
    let k := ({ s := s.modOp o.id fun o => { o with kind := .commit level strict st [] }, faulted := o.pre.1, offline := o.pre.2 } : Carry).commit
      o level snap w.recBlock.2 w.recCluster.2
    let cf := k.conf
    let own := conflicts b.buf (snap.filter fun d => !d.bad) o.wave.wave w.recBlock.2
    (∀ a ∈ own, a ∈ cf) ∧ (level < 2 → cf = distinct own) ∧
    (snap = [] → (level < 2 ∨ b.buf = []) → (level < 3 ∨ g.buf = []) → cf = []) ∧
    ((s.outboundReady o = false ∨ s.marksWait o level snap = true) → exec (.commitCompletion o.id) s = .next s) ∧
    (s.outboundReady o = true → s.marksWait o level snap = false →
      (strict.isSome = true → changed → exec (.commitCompletion o.id) s =
        .next (((back.putStatus o.wave st (status cPARENT 0)).opDone o.id).endBlock o.wave.grid o.wave.block)) ∧
      (∀ q, strict = some q → ¬changed → cf ≠ [] → exec (.commitCompletion o.id) s =
        .next ((((back.putStatus o.wave st (status cCONFLICT (min cf.length 0xFFFFFF))).modWave o.wave fun w =>
          w.putSPair q (BitVec.ofNat 64 (cf.foldl min (cf.headD 0)))).opDone o.id).endBlock o.wave.grid o.wave.block)) ∧
      ((strict = none ∨ (¬changed ∧ cf = [])) → exec (.commitCompletion o.id) s =
        .next (((((k.s.noteLate o (k.events.map fun e => (0, e))).putStatus o.wave st
          (if k.faulted then status cFAULTED 0 else if k.offline then status cOFFLINE 0 else status cOK (min cf.length 0xFFFFFF))).opDone
            o.id).respill o.wave o.core level).endBlock o.wave.grid o.wave.block)))

/-- R152, R155, R156: bytes moved into a buffer are what a read of the line sees there, with the child that moved them and its move count; the buffer's
other bytes stay, and a carried byte conflicts where another child has moved it since the count recorded. -/
def Sys2Proof.Claims.MoveRules : Prop :=
  ∀ (buf : List Delta) (d : Delta) (child count : Nat), d.marked = false → (d.bytes.map Prod.fst).Nodup →
    (∀ off x, (off, x) ∈ d.bytes → ∃ y bad, bufGet (probe d.space d.va d.pa) off (moveInto buf [d] child count) = some (x.val, bad) ∧
      bufHeld (moveInto buf [d] child count) d off = some y ∧ y.val = x.val ∧ y.child = child ∧ y.count = count) ∧
    (∀ off, off ∉ d.bytes.map Prod.fst → bufGet (probe d.space d.va d.pa) off (moveInto buf [d] child count) =
      bufGet (probe d.space d.va d.pa) off buf) ∧
    (∀ va pa off, va ≠ d.va → pa ≠ d.pa → bufGet (probe d.space va pa) off (moveInto buf [d] child count) = bufGet (probe d.space va pa) off buf) ∧
    (∀ a, a ∈ conflicts buf [d] child count ↔ ∃ off x y, (off, x) ∈ d.bytes ∧ a = 128 * d.va + off ∧ bufHeld buf d off = some y ∧
      y.child ≠ child ∧ count < y.count)

/-- R152, R155, R156, R159, R162: what a COMMIT completes as, and what its moves do. That a COMMIT carries nothing any more once an ABORT.WAVE has
followed it is the model's reading (log entry 66), and so is that what a drain adds to a buffer can conflict at the next level (log entry 92). That
the events of a completing COMMIT are of lane 0 (log entry 81) and that all of its moves are one step (log entry 16) are the model's choices. -/
def Obligations.CommitRules : Prop := Claims.CommitCompletes ∧ Claims.MoveRules

/-- R157, R158, R289: ABORT.BLOCK and ABORT.CLUSTER, once the wave's earlier outbound accesses and strong loads have performed, empty their level's buffer,
raise its generation and write OK with the generation; an ACQUIRE completes once the wave's earlier strong accesses and ATOMs have performed, that of
a resume once the wave's windows have been reopened (R181), and,
at device or system level, the core has applied every update that stands before its markers, which are placed first; the L2 of its die then applies
what stands before them too. -/
def Sys2Proof.Claims.AbortAndAcquire : Prop :=
  (∀ (s : State) (o : Op) (level : Nat) (st : BitVec 7) (b : Block) (g : Group), s.op o.id = some o → o.kind = .abort level st →
    s.block o.wave.grid o.wave.block = some b → s.group o.wave.grid (s.groupOf o.wave.grid o.wave.block) = some g →
    (s.outboundReady o = false → exec (.abortCompletion o.id) s = .next s) ∧
    (s.outboundReady o = true → level = 1 → exec (.abortCompletion o.id) s =
      .next (((((s.modBlock o.wave.grid o.wave.block fun x => { x with buf := [], gen := x.gen + 1 }).putStatus o.wave st
        (status cOK ((b.gen + 1).toNat % 2 ^ 24))).opDone o.id).trimSpill o.core).endBlock o.wave.grid o.wave.block)) ∧
    (s.outboundReady o = true → level = 2 → exec (.abortCompletion o.id) s =
      .next (((((s.modGroup o.wave.grid (s.groupOf o.wave.grid o.wave.block) fun x => { x with buf := [], gen := x.gen + 1 }).putStatus o.wave st
        (status cOK ((g.gen + 1).toNat % 2 ^ 24))).opDone o.id).trimSpill o.core).endBlock o.wave.grid o.wave.block))) ∧
  (∀ (s : State) (o : Op) (level : Nat) (st : BitVec 7) (mark : Option Nat) (silent : Bool) (off : BitVec 4), s.op o.id = some o →
    o.kind = .acquire level st mark silent off →
    ((∃ x ∈ s.earlier o, x.kind.cpath = some .atom) → exec (.acquireCompletion o.id) s = .next s) ∧
    (silent = true → (∃ w b, s.wave o.wave = some w ∧ b ∈ w.wins ∧ b.2.st = .pending) → exec (.acquireCompletion o.id) s = .next s) ∧
    ((∀ x ∈ s.earlier o, x.kind.cpath ≠ some .atom) →
      (silent = true → ∀ w b, s.wave o.wave = some w → b ∈ w.wins → b.2.st ≠ .pending) →
      (level < 3 → exec (.acquireCompletion o.id) s = .next (s.acquired o level st silent off)) ∧
      (3 ≤ level → (∀ u ∈ (s.core o.core).updq, mark.getD s.seq < u.seq) → exec (.acquireCompletion o.id) s =
        .next (((s.settleL2 o.core.die fun u => decide (u.seq ≤ mark.getD s.seq)).pruneFloors o.core).acquired o level st silent off)) ∧
      (3 ≤ level → (∃ u ∈ (s.core o.core).updq, u.seq ≤ mark.getD s.seq) → exec (.acquireCompletion o.id) s =
        .next (s.modOp o.id fun o => { o with kind := .acquire level st (some (mark.getD s.seq)) silent off }))))

/-- R154, R155, R157, R158, R169, R289, R323: COMMIT, ABORT, ACQUIRE and IFENCE at issue, and what ABORTs and ACQUIREs complete as. That the events of a
COMMIT at issue are of the lowest selected lane is the model's choice (log entry 81); what an ABORT.WAVE takes from COMMITs in flight is its reading
(log entry 66). That the windows of a resumed wave wait for the host's replies, and its ACQUIRE for them, is its reading of R141 (log entry 24). -/
def Obligations.CommitsAndAborts : Prop := Claims.CommitInstructions ∧ Claims.AbortAndAcquire

/-- R142, R143, R144, R168, R272: a write at the device level is what every later read there sees, changes no other byte, and puts one update on its way to every
core that holds an entry of the line, behind those already on their way; a core that applies the first update from a home has its bytes in its
entry, and one that applies an engine's recall loses the entry, and its bindings are RECALLED. -/
def Sys2Proof.Claims.DeviceWrites : Prop :=
  (∀ (s : State) (line : Nat) (bytes : Cells), (bytes.map Prod.fst).Nodup → (∀ b ∈ bytes, b.1 < 128) → bytes ≠ [] →
    (∀ b ∈ bytes, (s.devWrite line bytes).devRd (128 * line + b.1) = b.2) ∧
    (∀ a, (∀ b ∈ bytes, a ≠ 128 * line + b.1) → (s.devWrite line bytes).devRd a = s.devRd a) ∧
    (∀ id k, tget s.cores id = some k → ∃ u, u.line = line ∧ u.bytes = bytes ∧ u.seq = s.seq + 1 ∧ tget (s.devWrite line bytes).cores id =
      some (if (tget k.store line).isSome then { k with updq := k.updq ++ [u] } else k)) ∧
    (s.devWrite line bytes).waves = s.waves) ∧
  (∀ (s : State) (cid : CoreId) (home : Nat) (k : Core) (u : Update), tget s.cores cid = some k →
    k.updq.find? (fun u => u.home == home) = some u → ∃ t, exec (.deviceUpdateApply cid home) s = .next t ∧
      (∀ j, j ≠ cid → t.core j = s.core j) ∧ (t.core cid).updq = k.updq.filter (fun y => y.seq ≠ u.seq ∧ (u.drop = false ∨
        (tget k.store u.line).isSome = false ∨ y.line ≠ u.line)) ∧
      (∀ e, u.drop = false → tget k.store u.line = some e → (u.bytes.map Prod.fst).Nodup → t = { s with cores := t.cores, l2 := t.l2 } ∧
        ∃ x, tget (t.core cid).store u.line = some x ∧ ∀ off, sget 0 x.bytes off = (cget u.bytes off).getD (sget 0 e.bytes off)) ∧
      (u.drop = true → (k.store.map Prod.fst).Nodup → tget (t.core cid).store u.line = none ∧ t.waves = (s.recall cid u.line).waves))

/-- R292, R293, R350, R351, R163: ATOM at wave scope performs at issue, its lanes in an order that nothing fixes (log entry 2), and at every other goes in
flight with its operands, or traps DATA_ERROR at wave scope where a byte of it is uncorrectable in a buffer; RED leaves one record for each lane. Both check their window as a store of the type's size does, and trap XLATE where
PCIe cannot carry a system-scope operation to host memory. -/
def Sys2Proof.Claims.AtomInstructions : Prop :=
  ∀ (h : Hdr) (d b : BitVec 8) (n : BitVec 4) (off : AtomOff) (ty : Ty) (op : AOp) (scope pd : BitVec 3),
    let host : Ctx → Lanes := fun c => maskOf (c.lanes.filter fun l => isHost (128 * (c.w.bind l n.toNat).line))
    Claims.Window (.atom h d n off b ty op scope pd) n Ctx.lanes (fun c l => c.atomOff off l) ty.bytes true (fun s c =>
      let i := Instr.atom h d n off b ty op scope pd
      let accs := c.atomAccs n.toNat (c.lanes.map fun l => (l, c.atomOff off l)) b.toNat ty
      let t := s.beginIssue c.id
      (scope = 4 → host c ≠ 0 → pcieOk ty op false = false → Claims.Traps i s c .xlate 0 .a (host c) 0) ∧
      (¬(scope = 4 ∧ host c ≠ 0 ∧ pcieOk ty op false = false) →
        (accs = [] → exec i s = .next (t.issued i c (nextPc c.pc))) ∧
        (accs ≠ [] → scope ≠ 0 → exec i s = .next ((t.addOp { c.newOp t (.atom scope.toNat accs ty op d.toNat pd) with
          watch := watchOf (accs.map fun a => (a, ty.bytes)) }).issued i c (nextPc c.pc))) ∧
        (scope = 0 → (∃ a ∈ accs, badRun (t.buffers c.id 0) (t.spaceOf c.id.grid) a ty.bytes = true) → Claims.Traps i s c .dataError 0 .a c.mask 0) ∧
        (accs ≠ [] → scope = 0 → (∀ a ∈ accs, badRun (t.buffers c.id 0) (t.spaceOf c.id.grid) a ty.bytes = false) →
          let r := (freeOrder c.fresh 0 accs).foldl (atomLane c.id (t.spaceOf c.id.grid) 0 ty op {}) (t, [])
          exec i s = .next (((c.note (r.1.modWave c.id fun w => w.atomWrite d.toNat ty pd r.2) (r.2.map fun x => (x.1, x.2.2.2))).spill c.id).issued i c
            (nextPc c.pc))))) ∧
    Claims.Window (.red h n off b ty op scope) n Ctx.lanes (fun c l => c.atomOff off l) ty.bytes true (fun s c =>
      let i := Instr.red h n off b ty op scope
      let accs := c.atomAccs n.toNat (c.lanes.map fun l => (l, c.atomOff off l)) b.toNat ty
      let t := s.beginIssue c.id
      (scope = 4 → host c ≠ 0 → pcieOk ty op true = false → Claims.Traps i s c .xlate 0 .a (host c) 0) ∧
      (¬(scope = 4 ∧ host c ≠ 0 ∧ pcieOk ty op true = false) →
        exec i s = .next ((if accs = [] then t else (t.modBlock c.id.grid c.id.block fun x => { x with reds := x.reds ++ accs.map fun a =>
          { wave := c.id.wave, space := t.spaceOf c.id.grid, va := a.va / 128, pa := a.pa / 128, off := a.pa % 128, op := op, ty := ty
            scope := scope.toNat, value := a.b, own := watchOf [(a, ty.bytes)] } }).spill c.id).issued i c (nextPc c.pc))))

/-- R293: what an atomic operation writes, in each of its types. -/
def Sys2Proof.Claims.AtomicValues : Prop :=
  (∀ (n : Nat) (t : Ty) (x b c : BitVec n), (n = 32 ∧ (t = .i32 ∨ t = .n32)) ∨ (n = 64 ∧ (t = .i64 ∨ t = .n64)) →
    let new : AOp → Option Nat × Events := fun op => atomNew t op x.toNat b.toNat c.toNat
    let less := if t.signed then x.slt b else x.ult b
    new .add = (some (x + b).toNat, 0) ∧ new .and = (some (x &&& b).toNat, 0) ∧ new .or = (some (x ||| b).toNat, 0) ∧ new .xor = (some (x ^^^ b).toNat, 0) ∧
    new .exch = (some b.toNat, 0) ∧ new .cas = (if x = b then some c.toNat else none, 0) ∧
    new .min = (some (if less then x else b).toNat, 0) ∧ new .max = (some (if less then b else x).toNat, 0)) ∧
  (∀ (t : Ty) (x b c : Nat), t = .f32 ∨ t = .f64 →
    let f := tyFmt t
    let new : AOp → Option Nat × Events := fun op => atomNew t op x b c
    (f = if t = .f32 then fp32 else fp64) ∧ new .add = (some (fAdd f .rn false (f.val x) (f.val b)).1, (fAdd f .rn false (f.val x) (f.val b)).2) ∧
    new .min = (some (fMinMax f false x b).1, (fMinMax f false x b).2) ∧ new .max = (some (fMinMax f true x b).1, (fMinMax f true x b).2) ∧
    new .exch = (some b, 0) ∧ new .cas = (if x = b then some c else none, 0))

/-- R293, R300, R321, R333, R346, R353, R361: what the integer, bit and atomic operations compute. -/
def Obligations.ArithmeticValues : Prop := Claims.IntegerValues ∧ Claims.BitValues ∧ Claims.AtomicValues

/-- R163, R293: one lane of an ATOM at device scope, of device memory whose home is up and whose line is correct: it gives the value that stood there, and the
bytes hold the new value where the operation writes one; no other byte changes. -/
def Sys2Proof.Claims.AtomicPoint : Prop :=
  ∀ (s : State) (id : WaveId) (space : Nat) (ty : Ty) (op : AOp) (a : LaneAcc) (watch : Watch) (rs : LaneRes),
    s.nowAt space a = a → s.refusal id space 3 a ty.bytes = none → isHost a.pa = false → a.pa % 128 + ty.bytes ≤ 128 →
    ∃ t, atomLane id space 3 ty op watch (s, rs) a =
        (t, rs ++ [(a.lane, ofLe (s.devRdN a.pa ty.bytes), true, (atomNew ty op (ofLe (s.devRdN a.pa ty.bytes)) a.b.toNat a.c.toNat).2)]) ∧
      (∀ y, (atomNew ty op (ofLe (s.devRdN a.pa ty.bytes)) a.b.toNat a.c.toNat).1 = some y →
        (∀ k, k < ty.bytes → t.devRd (a.pa + k) = (leBytes ty.bytes y).getD k 0) ∧
        (∀ q, (q < a.pa ∨ a.pa + ty.bytes ≤ q) → t.devRd q = s.devRd q)) ∧
      ((atomNew ty op (ofLe (s.devRdN a.pa ty.bytes)) a.b.toNat a.c.toNat).1 = none → t.mem = s.mem)

/-- R142 to R144, R163, R168, R272, R293: writes at the device level, and one lane of an ATOM there. -/
def Obligations.DeviceAccesses : Prop := Claims.DeviceWrites ∧ Claims.AtomicPoint

/-- R159, R163, R253, R293, R294, R331, R371, R372: the completion of an ATOM performs its lanes, each once, in the order that the event names, once every earlier outbound
access and strong load of its wave has performed; a strong load waits for earlier strong loads and for what an earlier access writes of its bytes at its
scope, and one of wave scope for the update of a line that its wave is not to read older (log entry 57); a strong store is written line by line. -/
def Sys2Proof.Claims.StrongCompletes : Prop :=
  (∀ (s : State) (o : Op) (order : List Nat) scope accs ty aop d pd, s.op o.id = some o → o.kind = .atom scope accs ty aop d pd →
    (s.outboundReady o = true → order.Perm (accs.map LaneAcc.lane) →
      let r := (order.filterMap fun l => accs.find? fun a => a.lane == l).foldl (atomLane o.wave o.space scope ty aop o.watch) (s, [])
      exec (.atomCompletion o.id order) s = .next ((((r.1.modWave o.wave fun w => w.atomWrite d ty pd r.2).noteLate o (r.2.map fun x => (x.1, x.2.2.2))).opDone
        o.id).spillAfter o.wave)) ∧
    ((s.outboundReady o = false ∨ ¬order.Perm (accs.map LaneAcc.lane)) → exec (.atomCompletion o.id order) s = .next s)) ∧
  (∀ (s : State) (o : Op) sc accs ty n scalar d, s.op o.id = some o → o.kind = .strongLoad sc accs ty n scalar d →
    let now := accs.map (s.nowAt o.space)
    let waits := sc = 0 ∧ ∃ a ∈ now, s.behind o.wave o.core (a.pa / 128) = true
    (s.loadReady o sc now n = true → ¬waits →
      let r := now.foldl (loadLane o.wave o.space sc n) (s, [])
      exec (.strongAccessPerform o.id) s = .next ((r.1.modWave o.wave fun w => w.loadWrite scalar d ty n r.2).opDone o.id)) ∧
    ((s.loadReady o sc now n = false ∨ waits) → exec (.strongAccessPerform o.id) s = .next s)) ∧
  (∀ (s : State) (o : Op) sc accs, s.op o.id = some o → o.kind = .strongStore sc accs →
    let now := accs.map (s.nowAt o.space)
    (s.outboundReady o = true → exec (.strongAccessPerform o.id) s =
      .next ((((distinct (now.map fun a => a.pa / 128)).foldl (fun s l => s.strongLine o sc (now.filter fun a => a.pa / 128 == l)) s).opDone
        o.id).spillAfter o.wave)) ∧
    (s.outboundReady o = false → exec (.strongAccessPerform o.id) s = .next s))

/-- R159, R163, R253, R292 to R294, R331, R350, R351, R371, R372: ATOM and RED at issue, and strong accesses as they perform. The order of an ATOM's lanes
at wave scope is free (log entry 2). That DATA_ERROR has the path's lanes as its mask is the model's reading (log entry 53). -/
def Obligations.AtomicAccesses : Prop := Claims.AtomInstructions ∧ Claims.StrongCompletes

/-- R43, R44, R45, R46, R48, R211, R238, R291, R295, R378: the barrier and waiting instructions. A count outside 1 to 36,864 traps BARRIER. ARRIVE and BARSYNC register at
once where no outbound access of the wave is outstanding, and else once they have all performed. A wait writes its registers at once where its
condition holds, and else parks its path; a wait that ends with OK, and a query of the generation, show the wave the arrivals before them
(R218). BARQ writes what it asks; BARQ.RESET resets an instance that is FAULTED.
Which waits and queries make an arrival observed is the model's reading of R218 (log entry 77), and so is the mask of the BARRIER trap (log entry 53). -/
def Obligations.BarrierInstructions : Prop :=
  ∀ (h : Hdr) (d : BitVec 7) (bar : Bar) (n : Opnd) (tmo : BitVec 5) (k : BitVec 3) (path : CPath) (form : BarqForm) s c,
    let t := s.beginIssue c.id
    let cnt := Claims.sraw c n 1
    let limit := c.now + 2 ^ tmo.toNat
    let nx : Instr → State → Host.Outcome State Fault Refusal := fun i u => .next (u.issued i c (nextPc c.pc))
    let r := t.arrive c.id bar cnt c.sel c.w.stls
    let waits : Instr → Wait → Prop := fun i x =>
      (∀ rs, t.waitResult c.id c.w x = some rs → exec i s = nx i (t.modWave c.id fun w => rs.foldl (fun w r => w.putS r.1 r.2) (t.observed c.id w x))) ∧
      (t.waitResult c.id c.w x = none → exec i s = nx i (t.park c x))
    (∀ i, i = .arrive h d bar n ∨ i = .barsync h d bar n tmo ∨ i = .waitb h d bar n tmo ∨ i = .waitk h d k tmo ∨ i = .waitn h d n path tmo ∨
        i = .barq h d bar form ∨ i = .barqReset h d bar → s.clears i = some c → c.sel = 0 → exec i s = nx i t) ∧
    (∀ i, i = .arrive h d bar n ∨ i = .barsync h d bar n tmo → s.clears i = some c → c.sel ≠ 0 → ¬(1 ≤ cnt ∧ cnt ≤ 36864) →
      Claims.Traps i s c .barrier 0 .b c.mask (BitVec.ofNat 64 cnt)) ∧
    (1 ≤ cnt → cnt ≤ 36864 → c.sel ≠ 0 →
      (s.clears (.arrive h d bar n) = some c →
        (t.quiet c.id = true → exec (.arrive h d bar n) s = nx (.arrive h d bar n) (r.1.modWave c.id fun w => w.putSPair d (r.2.2 ++ status r.2.1 0)).wake) ∧
        (t.quiet c.id = false → exec (.arrive h d bar n) s = nx (.arrive h d bar n) (t.addOp (c.newOp t (.arrival bar cnt c.sel d none))))) ∧
      (s.clears (.barsync h d bar n tmo) = some c →
        (t.quiet c.id = true → r.2.1 = cOK → exec (.barsync h d bar n tmo) s =
          nx (.barsync h d bar n tmo) (r.1.park c (.barrier bar r.2.2 d true limit)).wake) ∧
        (t.quiet c.id = true → r.2.1 ≠ cOK → exec (.barsync h d bar n tmo) s =
          nx (.barsync h d bar n tmo) (r.1.modWave c.id fun w => w.putSPair d (r.2.2 ++ status r.2.1 0))) ∧
        (t.quiet c.id = false → exec (.barsync h d bar n tmo) s = nx (.barsync h d bar n tmo)
          ((t.addOp (c.newOp t (.arrival bar cnt c.sel d (some limit)))).park c (.op t.nextOp))))) ∧
    (c.sel ≠ 0 →
      (s.clears (.waitb h d bar n tmo) = some c →
        (c.grid.barEntry bar = none → exec (.waitb h d bar n tmo) s = nx (.waitb h d bar n tmo) (t.putS c.id d (status cNOT_MEMBER 0))) ∧
        (c.grid.barEntry bar ≠ none → waits (.waitb h d bar n tmo) (.barrier bar (BitVec.ofNat 32 cnt) d false limit))) ∧
      (s.clears (.waitk h d k tmo) = some c →
        ((sget {} c.w.toks k.toNat).st = .empty → exec (.waitk h d k tmo) s = nx (.waitk h d k tmo) (t.putS c.id d (status cNO_EFFECT 0))) ∧
        ((sget {} c.w.toks k.toNat).st ≠ .empty → waits (.waitk h d k tmo) (.token k d limit))) ∧
      (s.clears (.waitn h d n path tmo) = some c → waits (.waitn h d n path tmo) (.counter path cnt d limit)) ∧
      (s.clears (.barq h d bar form) = some c → exec (.barq h d bar form) s = nx (.barq h d bar form) (t.modWave c.id fun w =>
        (if form = .gen then w.observe c.id.block (t.bar c.id bar) (t.bar c.id bar).gen else w).putSPair d
        (if (c.grid.barEntry bar).isSome then (t.bar c.id bar).query form ++ status cOK 0 else (0 : Word) ++ status cNOT_MEMBER 0))) ∧
      (s.clears (.barqReset h d bar) = some c →
        ((∀ e, c.grid.barEntry bar = some e → e.member c.id.wave = false) → exec (.barqReset h d bar) s =
          nx (.barqReset h d bar) (t.modWave c.id fun w => w.putSPair d ((0 : Word) ++ status cNOT_MEMBER 0))) ∧
        (∀ e, c.grid.barEntry bar = some e → e.member c.id.wave = true →
          ((t.bar c.id bar).faulted = false → exec (.barqReset h d bar) s =
            nx (.barqReset h d bar) (t.modWave c.id fun w => w.putSPair d ((t.bar c.id bar).gen ++ status cNO_EFFECT 0))) ∧
          ((t.bar c.id bar).faulted = true → exec (.barqReset h d bar) s = nx (.barqReset h d bar)
            ((t.modBar c.id bar Barrier.reset).wake.modWave c.id fun w => w.putSPair d (((t.bar c.id bar).gen + 1) ++ status cOK 0))))))

/-- R43, R45: an arrival. It is no member, or its count is not the participant count: NOT_MEMBER. The instance is FAULTED: FAULTED. It has arrived in this generation:
ALREADY_ARRIVED. In each of these nothing changes. Else it is counted, and where it is the last and no bytes are pending the generation ends;
its status is OK, and it is given the generation it joined. R44: a wait ends with OK for a generation that has ended, and with FAULTED for one that faulted. -/
def Sys2Proof.Claims.BarrierRule : Prop :=
  (∀ (s : State) (id : WaveId) (b : Bar) (count stls : Nat) (lanes : Lanes),
    let x := s.bar id b
    let y := x.mark id.block id.wave stls
    ((∀ g e, s.grid id.grid = some g → g.barEntry b = some e → e.member id.wave = false ∨ g.barCount e id.block ≠ count) →
      s.arrive id b count lanes stls = (s, 3, x.gen)) ∧
    (∀ g e, s.grid id.grid = some g → g.barEntry b = some e → e.member id.wave = true → g.barCount e id.block = count →
      (x.faulted = true → s.arrive id b count lanes stls = (s, 2, x.gen)) ∧
      (x.faulted = false → (b.level = 0 → x.lanes &&& lanes ≠ 0) → (b.level ≠ 0 → (id.block, id.wave) ∈ x.who) →
        s.arrive id b count lanes stls = (s, 4, x.gen)) ∧
      (x.faulted = false → b.level ≠ 0 → (id.block, id.wave) ∉ x.who → s.arrive id b count lanes stls = (s.modBar id b fun _ =>
        if count ≤ x.arrived + 1 ∧ x.pend = 0 then { y with gen := x.gen + 1, arrived := 0, lanes := 0, who := [] }
        else { y with who := x.who ++ [(id.block, id.wave)], arrived := x.arrived + 1 }, 0, x.gen)) ∧
      (x.faulted = false → b.level = 0 → x.lanes &&& lanes = 0 → s.arrive id b count lanes stls = (s.modBar id b fun _ =>
        if count ≤ (lanesOf (x.lanes ||| lanes)).length ∧ x.pend = 0 then { x with gen := x.gen + 1, arrived := 0, lanes := 0, who := [] }
        else { x with lanes := x.lanes ||| lanes, arrived := (lanesOf (x.lanes ||| lanes)).length }, 0, x.gen)))) ∧
  (∀ (x : Barrier) (g : Word),
    (x.lastF = some g → x.test g = some 2) ∧
    (x.lastF ≠ some g → (g - x.gen).toInt < 0 → x.test g = some 0) ∧
    (x.lastF ≠ some g → x.faulted = true → x.gen = g → x.test g = some 2) ∧
    (x.lastF ≠ some g → ¬(g - x.gen).toInt < 0 → (x.faulted = false ∨ x.gen ≠ g) → x.test g = none))

/-- R43, R48, R51, R127, R238, R291: an arrival in flight registers once no outbound access before it is outstanding; where the limit of its BARSYNC has run by then,
as its die counts it, or of one whose wave is pre-empted or halted by a debugger as what remains of its count, the end of the clock writes OK if the generation has completed by then, else TIMEOUT, be the barrier faulted or not; at the end of a clock of its core (R22) a limit that has run ends the waits of a split
whose condition does not hold, with TIMEOUT, and refuses the lines that an OPEN still lacks. -/
def Sys2Proof.Claims.ArrivalsAndLimits : Prop :=
  (∀ (s : State) (o : Op) bar count lanes d sync, s.op o.id = some o → o.kind = .arrival bar count lanes d sync →
    let r := s.arrive o.wave bar count lanes o.stls
    let still := ∀ w, s.wave o.wave = some w → w.resident = false ∨ w.dbg = true
    let ran : Nat → Prop := fun limit => limit = 0 ∨ (¬still ∧ limit ≤ s.clkOf o.wave)
    ((s.outboundClear o = false ∨ o.joined ≠ none) → exec (.arrivalRegister o.id) s = .next s) ∧
    (s.outboundClear o = true → o.joined = none → sync = none →
      exec (.arrivalRegister o.id) s = .next ((r.1.modWave o.wave fun w => w.putSPair d (r.2.2 ++ status r.2.1 0)).opDone o.id)) ∧
    (∀ limit, s.outboundClear o = true → o.joined = none → sync = some limit → r.2.1 = cOK →
      (ran limit → exec (.arrivalRegister o.id) s = .next ((r.1.modOp o.id fun o => { o with joined := some r.2.2 }).wake)) ∧
      (¬ran limit → exec (.arrivalRegister o.id) s =
        .next ((r.1.modWave o.wave fun w => w.waitOfOp o.id (some (.barrier bar r.2.2 d true limit))).opDone o.id))) ∧
    (∀ limit, s.outboundClear o = true → o.joined = none → sync = some limit → r.2.1 ≠ cOK → exec (.arrivalRegister o.id) s =
      .next ((r.1.modWave o.wave fun w => (w.putSPair d (r.2.2 ++ status r.2.1 0)).waitOfOp o.id none).opDone o.id))) ∧
  (∀ (s : State) (p : PathId) (w : Wave), s.wave p.wave = some w →
    let u := s.endJoined p.wave
    let ends := (s.die w.core.die).edge = true ∨ (s.die w.core.die).power = .idle
    (¬ends → exec (.waitTimeout p) s = .next s) ∧
    (ends → (w.resident = false ∨ w.dbg = true) → exec (.waitTimeout p) s = .next u) ∧
    (ends → w.resident = true → w.dbg = false → exec (.waitTimeout p) s = .next (((w.waitsOf p.split).filterMap (u.openLimit p.wave)).foldl
      (fun s op => s.openExpire op) (u.modWave p.wave fun w => (w.wake u p.wave).endWaits fun _ x => u.timeoutResult p.wave x))) ∧
    ((∀ o ∈ s.ops, o.wave = p.wave → o.done = false → o.joined = none) → u = s) ∧
    (∀ o bar count lanes d sync g, s.ops.filter (fun x => x.wave == p.wave && !x.done) = [o] → o.kind = .arrival bar count lanes d sync →
      o.joined = some g →
      let code := if (s.bar p.wave bar).test g = some 0 then 0 else 1
      u = (s.modWave p.wave fun w => (((if code = 0 then w.observe p.wave.block (s.bar p.wave bar) (g + 1) else w).putS d (status code 0)).putS
        (d + 1) g).waitOfOp o.id none).opDone o.id)) ∧
  (∀ (s : State) (id : WaveId) (d : BitVec 7) (g : Word) (bar : Bar) (pair : Bool) (path : CPath) (n t : Nat) (k : BitVec 3),
    (t ≤ s.clkOf id → s.timeoutResult id (.barrier bar g d pair t) = some ((d, 1) :: if pair then [(d + 1, g)] else []) ∧
      s.timeoutResult id (.token k d t) = some [(d, 1)] ∧
      (∀ w, s.wave id = some w → s.timeoutResult id (.growth n d t) = some [(d, BitVec.ofNat 32 (1 + 256 * w.valloc))]) ∧
      s.timeoutResult id (.counter path n d t) = some [(d, BitVec.ofNat 32 (1 + 256 * s.counter id path))]) ∧
    (s.clkOf id < t → s.timeoutResult id (.barrier bar g d pair t) = none ∧ s.timeoutResult id (.token k d t) = none ∧
      s.timeoutResult id (.growth n d t) = none ∧ s.timeoutResult id (.counter path n d t) = none))

/-- R43 to R45, R48, R51, R127, R238, R291: arrivals, and the limits of waits. That an arrival carries to its instance what its wave has stored and
copied, and that a BARSYNC that ends with OK observes the arrivals before it, is the model's reading of R218 (log entry 77). -/
def Obligations.BarrierEvents : Prop := Claims.BarrierRule ∧ Claims.ArrivalsAndLimits

namespace Sys2Proof.Claims

open Sys2Proof.Machine

/-- A matrix instruction: with no lane selected it does nothing; off the leader core of a block that spans its hearth it traps MATRIX; an address
that its entry forbids traps MISALIGN with that address; and else `ok` holds of the hearth and the lowest selected lane. -/
def Matrix (i : Instr) (mis : Ctx → Nat → Option Nat) (ok : State → Ctx → Nat × Nat → Nat → Prop) : Prop :=
  ∀ s c, s.clears i = some c →
    (c.sel = 0 → exec i s = .next ((s.beginIssue c.id).issued i c (nextPc c.pc))) ∧
    (c.sel ≠ 0 → (s.beginIssue c.id).hearthOf c.id c.w = none → Traps i s c .matrix 0 .none c.mask 0) ∧
    (∀ hk l, (s.beginIssue c.id).hearthOf c.id c.w = some hk → lowest c.sel = some l →
      (∀ a, mis c l = some a → Traps i s c .misalign 0 .none c.mask (BitVec.ofNat 64 a)) ∧ (mis c l = none → ok s c hk l))

/-- The matrix operation at the head of a hearth's queue has begun. -/
def Head (s : State) (k : Nat × Nat) (m : MxOp) (o : Op) : Prop :=
  (∃ t, (s.hearth k).queue = m :: t) ∧ s.op m.id = some o

end Sys2Proof.Claims

/-! Engines. -/

/-- R230 to R233, R237, R241, R243, R247, R248: CPY adds its bytes to its barrier and its slice to the block's next copy operation of its wave, which a
first slice begins; one that joins a copy that has timed out writes TIMEOUT, and counts while an earlier CPY is in flight. BINA and BINR go in
flight with their operands; a BINA owns the lines of its lanes' ticket words from its issue, where its reads may begin then (log entry 75). ISECT writes the pairs of its loop, and the number of them and where it stopped, after 12 clocks. -/
def Obligations.EngineInstructions : Prop :=
  ∀ (h : Hdr) (d x desc : BitVec 7) (bar : Option Bar) (dir : CpyDir) (tmo : BitVec 5) (v a b dv : BitVec 8) (ty : Ty) (op : AOp) (g : Opnd)
      (reset : Bool),
    Claims.Does (.cpy h d x bar dir tmo) (fun c s =>
      let n := c.w.cpys + 1
      let src := (c.sPair x).toNat
      let dst := (c.sPair (x + 2)).toNat
      let bytes := (c.s (x + 4)).toNat
      let t := s.modWave c.id fun w => { w with cpys := n }
      let o := c.newOp t (.cpy n dir src dst bytes bar d 0 none)
      if c.sel = 0 then s else match (s.block c.id.grid c.id.block).bind fun b => b.copy n with
        | some k => if k.timedOut then (t.putS c.id d (status cTIMEOUT 0)).addDone o else (t.addOp o).pendBytes c.id bar bytes
        | none => ((t.addOp o).modBlock c.id.grid c.id.block fun b => b.setCopy { n := n, limit := c.now + 2 ^ tmo.toNat }).pendBytes
            c.id bar bytes) ∧
    Claims.Does (.bina h d v desc ty op) (fun c s =>
      let accs : List LaneAcc := c.lanes.map fun l =>
        { lane := l, va := c.w.regs false v.toNat 2 l, pa := 0, b := BitVec.ofNat 64 (c.w.regs false (v.toNat + 2) ty.regs l) }
      let o := c.newOp s (.bina accs (c.sPair desc).toNat ty op d none)
      if c.sel = 0 then s else (s.addOp o).ownTickets o (c.sPair desc).toNat ty accs) ∧
    (∀ (s : State) (o : Op) (n : Nat) (accs : List LaneAcc), ((s.ownTickets o n ty accs).ops = s.ops ∧ (s.ownTickets o n ty accs).mem = s.mem) ∧
      (s.outboundClear o = false → s.ownTickets o n ty accs = s) ∧
      ∀ bs, s.outboundClear o = true → s.descAt o n needW = .ok bs → ∀ a ∈ accs, ∀ pa, bs.target ≤ a.va → (a.va - bs.target) / 2 ^ 21 < bs.regions →
        (a.va - bs.target) % 2 ^ 21 % ty.bytes = 0 → s.find o (bs.ticketVa ((a.va - bs.target) / 2 ^ 21)) needW true = .at pa →
        (pa / 128, o.id) ∈ (s.ownTickets o n ty accs).owned) ∧
    Claims.Does (.binr h d desc g reset) (fun c s => if c.sel = 0 then s else
      s.addOp (c.newOp s (.binr (c.sPair desc).toNat (Claims.sraw c g 1) reset d none))) ∧
    Claims.Does (.isect h dv a b x) (fun c s =>
      let n := c.lanes.length
      let r := isectLoop (c.lanes.map fun l => (c.w.vreg a.toNat l).toNat) (c.lanes.map fun l => (c.w.vreg b.toNat l).toNat) (2 * n) 0 0 []
      if c.sel = 0 then s else c.fix s 12 (vecWrites dv.toNat 1 ((List.range n).map fun k =>
        (c.lanes.getD k 0, match r.1[k]? with | some p => p.1 + 65536 * p.2 | none => 0xFFFFFFFF)) ++
          scaWrites x.toNat 1 (r.1.length + 256 * r.2.1 + 65536 * r.2.2)))

/-- R248: on two ascending lists of one length without the end mark, the loop of ISECT finds exactly the places at which the lists have a value in
common, in order. -/
def Sys2Proof.Claims.IsectFindsCommon : Prop :=
  ∀ (a b : List Nat), a.length = b.length → a.Pairwise (· < ·) → b.Pairwise (· < ·) → 0xFFFFFFFF ∉ a → 0xFFFFFFFF ∉ b →
    let r := (isectLoop a b (2 * a.length) 0 0 []).1
    (∀ p, p ∈ r ↔ ∃ x, a[p.1]? = some x ∧ b[p.2]? = some x) ∧ (r.map Prod.fst).Pairwise (· < ·)

/-- R232, R233, R235, R127, R167: the events of copies. A copy issues once every wave of its block has contributed or ended; its collection ends by TIMEOUT at its limit, at
the end of a clock of its die; its statuses land once every slice has ended and the outbound accesses before them have performed; a line to which nothing more is written is released. -/
def Sys2Proof.Claims.CopyEvents : Prop :=
  ∀ (s : State) (g b n : Nat) (x : Block) (k : CopyOp), s.block g b = some x → x.copy n = some k →
    let sl := s.ops.filter (Op.sliceOf g b n)
    let all := ∀ w ∈ s.wavesOf g b, n ≤ ((s.wave w).map Wave.cpys).getD 0
    ((k.issued = true ∨ k.timedOut = true ∨ ¬all) → exec (.cpyIssue g b n) s = .next s) ∧
    (k.issued = false → k.timedOut = false → all → exec (.cpyIssue g b n) s = .next (sl.foldl (fun s o => match o.kind with
      | .cpy _ dir _ dst bytes _ _ _ none => if dir = .mp then s else s.ownDest o dst bytes
      | _ => s) (s.modBlock g b fun y => y.setCopy { k with issued := true }))) ∧
    (k.issued = false → k.timedOut = false → k.limit ≤ s.clk x.die → ((s.die x.die).edge = true ∨ (s.die x.die).power = .idle) → (∃ y, s.group g (s.groupOf g b) = some y ∧ y.resident = true) →
      exec (.cpyCollectionTimeout g b n) s = .next (sl.foldl (fun s o => match o.kind with
        | .cpy _ _ _ _ _ bar st _ _ => ((s.faultBar o.wave bar).putStatus o.wave st (status cTIMEOUT 0)).opDone o.id
        | _ => s) (s.modBlock g b fun y => y.setCopy { k with timedOut := true }))) ∧
    ((s.clk x.die < k.limit ∨ ((s.die x.die).edge = false ∧ (s.die x.die).power ≠ .idle)) → exec (.cpyCollectionTimeout g b n) s = .next s) ∧
    (k.issued = true → (∀ o ∈ sl, o.sliceEnded = true ∧ s.outboundClear o = true) → exec (.cpyCompletion g b n) s =
      .next (((sl.map Op.id).foldl (fun s op => s.opDone op) (sl.foldl (fun s o => match o.kind with
        | .cpy _ _ _ _ _ _ st _ stop => ((s.putStatus o.wave st (match stop with
          | some (code, off, _) => status code (if code = 0x59 then 0 else min (off / 256) 0xFFFFFF)
          | none => status cOK 0)).modWave o.wave fun w =>
            { w with unread := (w.unread.filter fun x => x.1 != st.toNat) ++ [(st.toNat, n)] }).releaseAll o.id
        | _ => s) (s.modBlock g b fun y => { y with copies := y.copies.filter fun z => z.n != n }))).endBlock g b)) ∧
    ((k.issued = false ∨ ∃ o ∈ sl, o.sliceEnded = false ∨ s.outboundClear o = false) → exec (.cpyCompletion g b n) s = .next s) ∧
    (∀ line, exec (.engineLineRelease line) s = .next { s with owned := s.owned.filter fun x => x.1 ≠ line ∨ s.stillWrites x.2 line = true }) ∧
    (∀ line o m dir src dst bytes bar st done stop, s.op o.id = some o → o.kind = .cpy m dir src dst bytes bar st done stop →
      (s.stillWrites o.id line = true ↔ dir ≠ .mp ∧ stop = none ∧
        ∃ p ∈ pageStarts (dst + done) (bytes - done), ∃ pa, s.seek o o.space p.1 needW = .ok pa ∧ line ∈ runLines pa p.2))

/-- R234, R45, R15: the next piece of a memory-to-memory slice, where its ends translate to memory of homes that are up, its lines are correct, the engine has its
request (R15), and no slice has met a byte of it: its destination holds what its source held, or held when the step before read the rest of its
last line, and no other byte at the device level changes; the slice has gone on by the piece, which lies in one page at either end, and keeps the rest of the source line that the
piece ends in, which it has read in the same step. -/
def Sys2Proof.Claims.CopyPiece : Prop :=
  ∀ (s : State) (o : Op) (x : Block) (k : CopyOp) (n src dst bytes done pa pb : Nat) (st : BitVec 7),
    s.op o.id = some o → o.kind = .cpy n .mm src dst bytes none st done none → s.block o.wave.grid o.wave.block = some x → x.copy n = some k →
    k.issued = true → done < bytes → (∀ y ∈ s.ops, Op.sliceOf o.wave.grid o.wave.block n y = true → s.outboundClear y = true) →
    s.hasEntry o none = true → (∀ y ∈ s.copies, y.id ≠ o.id) →
    s.memEnd o (src + done) needR = .at pa → s.memEnd o (dst + done) needW = .at pb →
    let len := pieceLen .mm src dst bytes done
    s.pieceFault o (.at pa) (.at pb) (src + done) (dst + done) len = none → 
    (∀ j, j < len → s.clash o n len (src + done + j) (pa + j) false = false ∧ s.clash o n len (dst + done + j) (pb + j) true = false) →
    0 < len ∧ len ≤ 4096 ∧ (src + done) / 4096 = (src + done + len - 1) / 4096 ∧ (dst + done) / 4096 = (dst + done + len - 1) / 4096 ∧
    ∃ t, exec (.transactionBytesLand o.id) s = .next t ∧
      (∀ j, j < len → t.devRd (pb + j) = if j < o.line.length then o.line.getD j 0 else s.devRd (pa + j)) ∧
      (∀ q, (q < pb ∨ pb + len ≤ q) → t.devRd q = s.devRd q) ∧
      t.op o.id = some { o with
        kind := .cpy n .mm src dst bytes none st (done + len) none
        line := (List.range (min (bytes - done - len) ((128 - (pa + len) % 128) % 128))).map fun k =>
          if len + k < o.line.length then o.line.getD (len + k) 0 else s.devRd (pa + len + k) }

/-- R45, R234, R248: what ISECT finds and what a piece of a copy writes. -/
def Obligations.EngineValues : Prop := Claims.IsectFindsCommon ∧ Claims.CopyPiece

/-- R242, R244, R245, R252: a BINA reads its descriptor and appends its lanes' records one at a time in no fixed order, each with its ticket and record, whose lines it owns, or the code that
refuses it; with no lane left it writes its status, the first code met in the order of the rule, with the number appended. A BINR begins in its turn, once every BINR of its die
that issued before it has begun, and at most four at a time on a die: it reads its descriptor, its bin's count and the records there. At its end its region is written, and its
status is the first code met, with the number applied; where a record was one of a BINA that had not completed, the region takes free values. Both wait while the core has 1024
requests outstanding; a replay takes its share of the L2. That the codes of a BINR's own descriptor and ticket word are the translation's, with detail 0, and that one lane's
append is one step, are the model's choices (log entries 85, 16). -/
def Sys2Proof.Claims.BinEvents : Prop :=
  ∀ (s : State) (o : Op), s.op o.id = some o →
    let fin : State → BitVec 7 → Word → State := fun t st x => (((t.putStatus o.wave st x).releaseAll o.id).opDone o.id).endBlock o.wave.grid o.wave.block
    (∀ accs desc ty aop st, o.kind = .bina accs desc ty aop st none →
      ((s.outboundClear o = false ∨ s.hasEntry o none = false) → exec (.binaCompletion o.id) s = .next s) ∧
      (s.outboundClear o = true → s.hasEntry o none = true →
        (s.descAt o desc needW = .wait → exec (.binaCompletion o.id) s = .next s) ∧
        (∀ c, s.descAt o desc needW = .no c → exec (.binaCompletion o.id) s = .next (fin s st (status c 0))) ∧
        (∀ b, s.descAt o desc needW = .ok b → exec (.binaCompletion o.id) s =
          .next (s.modOp o.id fun o => { o with kind := .bina accs desc ty aop st (some { set := b }) })))) ∧
    (∀ desc ty aop st k, o.kind = .bina [] desc ty aop st (some k) → exec (.binaCompletion o.id) s = .next (fin s st
      (status ((([cDATA, cOFFLINE, 0x63, 0x61, 0x62].find? fun c => k.codes.contains c)).getD cOK) (min k.recs.length 0xFFFFFF)))) ∧
    (∀ accs desc ty aop st k, o.kind = .bina accs desc ty aop st (some k) → accs ≠ [] →
      ((∀ a ∈ accs, s.appendLane o ty aop k a = none) → exec (.binaCompletion o.id) s = .next s) ∧
      ((∃ a ∈ accs, s.appendLane o ty aop k a ≠ none) → ∃ a ∈ accs, ∃ (t : State) (q : BinWalk), s.appendLane o ty aop k a = some (t, q) ∧
        exec (.binaCompletion o.id) s = .next (({ t with fresh := t.fresh + 1 } : State).modOp o.id fun o =>
          { o with kind := .bina (accs.filter fun x => x.lane != a.lane) desc ty aop st (some q) })) ∧
      ∀ a ∈ accs,
        let g := (a.va - k.set.target) / 2 ^ 21
        let off := (a.va - k.set.target) % 2 ^ 21
        let app := s.appendLane o ty aop k a
        let bad := a.va < k.set.target ∨ k.set.regions ≤ g ∨ off % ty.bytes ≠ 0
        (bad → app = some (s, { k with codes := addNew k.codes 0x61 })) ∧
        (¬bad → s.find o (k.set.tickets + 4 * g) needW true = .wait → app = none) ∧
        (∀ c, ¬bad → s.find o (k.set.tickets + 4 * g) needW true = .no c → app = some (s, { k with codes := addNew k.codes c })) ∧
        (∀ pa, ¬bad → s.find o (k.set.tickets + 4 * g) needW true = .at pa →
          let n := s.devNat pa 4
          let t := (s.own o.id (pa / 128)).devWriteBytes pa (leBytes 4 ((n + 1) % 2 ^ 32))
          let at_ := k.set.area + (g * k.set.cap + n) * 16
          (k.set.cap ≤ n → app = some (t, { k with codes := addNew k.codes 0x62 })) ∧
          (n < k.set.cap → t.find o at_ needW false = .wait → app = none) ∧
          (∀ c, n < k.set.cap → t.find o at_ needW false = .no c → app = some (t, { k with codes := addNew k.codes c })) ∧
          (∀ ra, n < k.set.cap → t.find o at_ needW false = .at ra →
            app = some ((t.own o.id (ra / 128)).devWriteBytes ra (leBytes 4 (aop.code * 2 ^ 28 + ty.code * 2 ^ 24 + off) ++ leBytes 4 0 ++
              leBytes 8 (a.b.toNat % 2 ^ ty.bits)), { k with recs := k.recs ++ [ra] })))) ∧
    (∀ desc g reset st, o.kind = .binr desc g reset st none →
      let begun : Op → Bool := fun x => match x.kind with | .binr _ _ _ _ (some _) => true | _ => false
      let mine := s.ops.filter fun x => !x.done && x.core.die == o.core.die && (match x.kind with | .binr .. => true | _ => false)
      let ready := s.outboundClear o = true ∧ (s.requests o.core).length < 1024 ∧ (mine.filter begun).length < 4 ∧
        ∀ x ∈ mine.takeWhile fun x => x.id != o.id, begun x = true
      (¬ready → exec (.binrReplay o.id) s = .next s) ∧
      (ready → s.descAt o desc needR = .wait → exec (.binrReplay o.id) s = .next s) ∧
      (∀ c, ready → s.descAt o desc needR = .no c → exec (.binrReplay o.id) s = .next (fin s st (status c 0))) ∧
      (∀ b, ready → s.descAt o desc needR = .ok b →
        let ticket := s.find o (b.tickets + 4 * g) (if reset then needRW else needR) true
        (b.regions ≤ g → exec (.binrReplay o.id) s = .next (fin s st (status 0x61 0))) ∧
        (g < b.regions → ticket = .wait → exec (.binrReplay o.id) s = .next s) ∧
        (∀ c, g < b.regions → ticket = .no c → exec (.binrReplay o.id) s = .next (fin s st (status c 0))) ∧
        (∀ pa, g < b.regions → ticket = .at pa →
          let places := (List.range (min (s.devNat pa 4) b.cap)).map fun t => b.recordVa g t
          let t := if reset then (s.engineRecall (pa / 128)).devWriteBytes pa (leBytes 4 0) else s
          (places.mapM (s.recordAt o) = none → exec (.binrReplay o.id) s = .next s) ∧
          (places = [] → exec (.binrReplay o.id) s = .next (fin t st (status cNO_EFFECT 0))) ∧
          (∀ recs, places ≠ [] → places.mapM (s.recordAt o) = some recs → exec (.binrReplay o.id) s = .next (((t.modOp o.id fun o =>
            { o with kind := OpKind.binr desc g reset st (some (b.target + g * 2 ^ 21, recs, places.any (s.openRecord o))) }).trimL2 o.core.die).ownDest o
              (b.target + g * 2 ^ 21) (2 ^ 21)))))) ∧
    (∀ desc g reset st region recs spoiled, o.kind = .binr desc g reset st (some (region, recs, spoiled)) →
      let k := recs.foldl (Replay.record s o region) {}
      let t := if spoiled then s.freeRegion o region else (distinct (k.cells.map fun c => c.1 / 128)).foldl (fun s l =>
        s.devWrite l ((k.cells.filter fun c => c.1 / 128 == l).map fun c => (c.1 % 128, c.2))) s
      ((k.wait = true ∨ s.hasEntry o none = false) → exec (.binrCompletion o.id) s = .next s) ∧
      (k.wait = false → s.hasEntry o none = true → exec (.binrCompletion o.id) s = .next (fin (t.noteLate o k.events) st
        (status ((([cDATA, cOFFLINE, 0x63, 0x61].find? fun c => k.codes.contains c)).getD cOK) (min k.count 0xFFFFFF)))))

/-- R127, R167, R232, R233, R235, R242, R244: the events of copies and bins. That one lane of a BINA appends in one step, and that a BINR takes its
records in one step and applies them in another, is the model's choice (log entry 16). That a BINA and a BINR hold one of the core's 1024 requests and
wait while it has none for them is the model's reading (log entry 88). That DATA_ERROR and DIE_OFFLINE stand before the codes of the rule's table is
the model's reading (log entry 20), and so are from when a BINA's engine owns which lines (log entry 75) and a replay's share of the L2 (log entry
91). By what a wave observes a copy is its reading of R236 (log entry 77). -/
def Obligations.EngineEvents : Prop := Claims.CopyEvents ∧ Claims.BinEvents

/-! The matrix engines. -/

/-- R205, R207 to R209, R212, R213, R219: MMA, MXLD, MXST and MXZ. One of a tile that another wave owns makes its token FAULTED with TILE_OWNED; every other takes the tile
for its wave, makes its token PENDING, and enters its hearth's queue behind the rest with what it read; MXST takes its destination lines.
That the MATRIX and MISALIGN traps have no field and the path's lanes as their mask is the model's reading (log entry 53).
Which STLs and copies its wave has observed is its reading of R218 and R236 (log entry 77). -/
def Obligations.MatrixInstructions : Prop :=
  ∀ (h : Hdr) (k : BitVec 3) (x : BitVec 8) (semi : Semi) (idx : Bool) (tile : BitVec 2) (a : Opnd) (stride : BitVec 7) (ty : Ty) (rnd : Rnd)
      (rel : Bool) (fill : Fill),
    let enters : Instr → State → Ctx → Nat × Nat → MxKind → (State → State) → Prop := fun i s c hk kind after =>
      let t := s.beginIssue c.id
      (∀ w, ((t.hearth hk).tile tile.toNat).owner = some w → w ≠ c.id →
        exec i s = .next ((after (t.setTok c.id k ⟨.faulted, status 0x53 0⟩)).issued i c (nextPc c.pc))) ∧
      ((∀ w, ((t.hearth hk).tile tile.toNat).owner = some w → w = c.id) →
        exec i s = .next ((after (((t.addOp (c.newOp t (.matrix k))).setTok c.id k ⟨.pending, 0⟩).modHearth hk fun y =>
          let z : Hearth := y.modTile tile.toNat fun z => { z with owner := some c.id }
          { z with queue := y.queue ++ [{ id := t.nextOp, tok := k, tile := tile.toNat, kind := kind, seen := c.observed t }] })).issued i c (nextPc c.pc)))
    let v : Ctx → Nat → Nat → Nat := fun c l j => (c.w.vreg (x.toNat + j) l).toNat
    let addr : Ctx → Nat → Nat := fun c l => Claims.raw c a 2 l
    let bad : Ctx → Nat → Option Nat := fun c l =>
      if addr c l % 16 ≠ 0 ∨ (c.s stride).toNat % 16 ≠ 0 ∨ (c.s stride).toNat < 128 * ty.bytes then some (addr c l) else none
    Claims.Matrix (.mma h k x semi idx tile)
      (fun c l => mmaMisaligned (8192 * c.grid.rec_.share) (v c l 0) (v c l 1) (v c l 2) (v c l 3) idx)
      (fun s c hk l => enters (.mma h k x semi idx tile) s c hk (.mma (v c l 0) (v c l 1) (v c l 2) (v c l 3) semi idx) id) ∧
    Claims.Matrix (.mxld h k a stride ty tile) bad
      (fun s c hk l => enters (.mxld h k a stride ty tile) s c hk (.ld (addr c l) (c.s stride).toNat ty) id) ∧
    Claims.Matrix (.mxst h k a stride ty rnd tile rel) bad
      (fun s c hk l => enters (.mxst h k a stride ty rnd tile rel) s c hk (.st (addr c l) (c.s stride).toNat ty rnd rel) fun t =>
        match t.op (s.beginIssue c.id).nextOp with
        | some o => (List.range 128).foldl (fun t r => t.ownDest o (addr c l + r * (c.s stride).toNat) (128 * ty.bytes)) t
        | none => t) ∧
    Claims.Matrix (.mxz h k fill tile rel) (fun _ _ => none)
      (fun s c hk _ => enters (.mxz h k fill tile rel) s c hk (.z fill rel) id)

/-- R207, R208, R221, R222: the operation at the head of a hearth's queue begins once the outbound accesses before it have performed; an MXST then holds the cells that it
reads, and with .REL frees its tile. MXZ fills every cell of its tile, or with .REL frees it. An operation that has not begun does not complete. -/
def Sys2Proof.Claims.HearthQueue : Prop :=
  ∀ (s : State) (d h : Nat) (m : MxOp) (o : Op), Claims.Head s (d, h) m o →
    ((m.begun = true ∨ s.outboundClear o = false ∨ s.mxRuns o = false) → exec (.hearthQueueDispatch d h) s = .next s) ∧
    (m.begun = false → s.outboundClear o = true → s.mxRuns o = true →
      (∀ fill rel, m.kind = .z fill rel → exec (.hearthQueueDispatch d h) s = .next (s.modMx (d, h) m.id fun x => { x with begun := true })) ∧
      (∀ addr stride ty, m.kind = .ld addr stride ty → exec (.hearthQueueDispatch d h) s =
        .next (s.modMx (d, h) m.id fun x => { x with begun := true })) ∧
      (∀ a b ix fb semi idx, m.kind = .mma a b ix fb semi idx → exec (.hearthQueueDispatch d h) s =
        .next (s.modMx (d, h) m.id fun x => { x with begun := true })) ∧
      (∀ addr stride ty rnd rel, m.kind = .st addr stride ty rnd rel → ((s.hearth (d, h)).tile m.tile).bad = [] →
        exec (.hearthQueueDispatch d h) s = .next ((if rel then s.modHearth (d, h) fun x => x.release o.wave (s.laterOn (d, h) m o.wave) m.tile
          else s).modMx (d, h) m.id fun x => { x with begun := true, cells := some ((s.hearth (d, h)).tile m.tile).cells })) ∧
      (∀ addr stride ty rnd rel b l, m.kind = .st addr stride ty rnd rel → ((s.hearth (d, h)).tile m.tile).bad = b :: l →
        exec (.hearthQueueDispatch d h) s = .next (s.mxDone (d, h) m o cDATA (5, b / 128, b % 128, 0)))) ∧
    (m.begun = false → exec (.mmaCompletion d h) s = .next s ∧ exec (.mxldCompletion d h) s = .next s ∧ exec (.mxzCompletion d h) s = .next s) ∧
    (∀ fill, m.begun = true → m.kind = .z fill false → m.tile < (s.hearth (d, h)).tiles.length → ∃ u : State,
      exec (.mxzCompletion d h) s = .next (u.mxDone (d, h) m o cOK (7, 0, 0, 0)) ∧ u = { s with hearths := u.hearths } ∧
      ∀ n, n < 16384 → sget (0 : Word) ((u.hearth (d, h)).tile m.tile).cells n = (match fill with | .zero => 0#32 | .pinf => 0x7F800000#32 | .ninf => 0xFF800000#32)) ∧
    (∀ fill, m.begun = true → m.kind = .z fill true → exec (.mxzCompletion d h) s =
      .next ((s.modHearth (d, h) fun x => x.release o.wave (s.laterOn (d, h) m o.wave) m.tile).mxDone (d, h) m o cOK (7, 0, 0, 0)))

/-- R199, R214 to R221, R228: MMA, MXLD and MXST end with the first failure of their checks, or make their tile or their rows and count their exceptions. The cells of
MXLD are the elements along the runs of the tile image; MXST writes the elements along its runs, each within one line, and where a run fails those of the others that the
event names (log entry 2). R210: a token becomes
DONE with OK, or FAULTED with the code and place of the failure; a code that traps makes a MATRIX trap due for a wave that has lanes.
That MXLD and MXST wait while their core has no request for them is the model's reading (log entry 88), and that the events of a matrix operation are of lane
0 its choice (log entry 81). -/
def Obligations.HearthCompletions : Prop :=
  (∀ (s : State) (d h : Nat) (m : MxOp) (o : Op) a b ix fb semi idx, Claims.Head s (d, h) m o → m.begun = true → m.kind = .mma a b ix fb semi idx →
    (∀ e, s.mmaRun (d, h) m o none = .error e → exec (.mmaCompletion d h) s =
      .next ((if e.2.1 = 5 then s.spoilTile (d, h) m.tile else s).mxDone (d, h) m o e.1 e.2)) ∧
    (∀ r, s.mmaRun (d, h) m o none = .ok r → exec (.mmaCompletion d h) s = .next ((({ (s.modHearth (d, h) fun x => x.modTile m.tile fun _ => r.1) with
      fresh := s.fresh + 1 } : State).noteEngine o r.2.1.ev).mxDone (d, h) m o cOK (7, 0, 0, 0)))) ∧
  (∀ (s : State) (d h : Nat) (m : MxOp) (o : Op) addr stride ty, Claims.Head s (d, h) m o → m.begun = true → m.kind = .ld addr stride ty →
    let runs := imageRuns addr stride ty
    let cells := runs.flatMap fun x => match s.runFault o x.2.2.1 needR true with
      | .ok pa => (List.range (x.2.2.2 / ty.bytes)).map fun j => (128 * x.1 + x.2.1 + j, mxldCell ty (s.devNat (pa + j * ty.bytes) ty.bytes))
      | .error _ => []
    let tile : Sparse Word := cells.foldl (fun (l : Sparse Word) c => sset 0 l c.1 (BitVec.ofNat 32 c.2.1)) []
    ((s.hasEntry o none = false ∨ (s.imageFault o runs needR true = none ∧ s.imageWaits o runs needR = true)) →
      exec (.mxldCompletion d h) s = .next s) ∧
    (∀ c r col va, s.hasEntry o none = true → s.imageFault o runs needR true = some (c, r, col, va) →
      exec (.mxldCompletion d h) s = .next (s.mxDone (d, h) m o c (6, r, col, va))) ∧
    (s.hasEntry o none = true → s.imageFault o runs needR true = none → s.imageWaits o runs needR = false →
      exec (.mxldCompletion d h) s = .next (((s.modHearth (d, h) fun x => x.modTile m.tile fun t => { t with cells := tile, bad := [] }).noteEngine
        o (cells.foldl (fun (e : Events) c => e ||| c.2.2) 0)).mxDone (d, h) m o cOK (7, 0, 0, 0)))) ∧
  (∀ (s : State) (d h lines : Nat) (m : MxOp) (o : Op) addr stride ty rnd rel cells, Claims.Head s (d, h) m o → m.kind = .st addr stride ty rnd rel →
    m.cells = some cells →
    let runs := imageRuns addr stride ty
    let fault := s.imageFault o runs needW false
    let elems := (List.range 16384).map fun j => mxstElem ty rnd (sget (0 : Word) cells j).toNat
    let put : (Nat → Bool) → State := fun go => (runs.zipIdx.foldl (fun s (x, i) => match s.runFault o x.2.2.1 needW false with
      | .ok pa => if go i then (s.engineRecall (pa / 128)).devWriteBytes pa ((List.range (x.2.2.2 / ty.bytes)).flatMap fun j =>
          leBytes ty.bytes (elems.getD (128 * x.1 + x.2.1 + j) (0, 0)).1) else s
      | .error _ => s) s).noteEngine o (elems.foldl (fun (e : Events) c => e ||| c.2) 0)
    ((s.hasEntry o none = false ∨ (fault = none ∧ s.imageWaits o runs needW = true)) → exec (.mxstCompletion d h lines) s = .next s) ∧
    (∀ c r col va, s.hasEntry o none = true → fault = some (c, r, col, va) → exec (.mxstCompletion d h lines) s =
      .next ((put fun i => lines.testBit i).mxDone (d, h) m o c (6, r, col, va))) ∧
    (s.hasEntry o none = true → fault = none → s.imageWaits o runs needW = false →
      exec (.mxstCompletion d h lines) s = .next ((put fun _ => true).mxDone (d, h) m o cOK (7, 0, 0, 0)))) ∧
  (∀ (s : State) (d h : Nat) (m : MxOp) (o : Op) (w : Wave) (code : Nat) (at_ : Nat × Nat × Nat × Nat), s.op m.id = some o → s.wave o.wave = some w → ∃ (t : State) (x : Wave),
    s.mxDone (d, h) m o code at_ = ((t.setTok o.wave m.tok ⟨if code = 0 then .done else .faulted,
      status code (if code = 0 then 0 else at_.1 + 16 * at_.2.1 + 4096 * at_.2.2.1)⟩).opDone m.id).endBlock o.wave.grid o.wave.block ∧
    t.wave o.wave = some x ∧ (t.hearth (d, h)).queue = (s.hearth (d, h)).queue.filter (fun y => y.id ≠ m.id) ∧
    (code = 0x50 ∨ code = 0x51 ∨ code = 0x52 ∨ code = 0x54 ∨ code = 0x0C → w.lanes ≠ 0 → ∃ r, x.due = w.due ++ [r] ∧ r.cause = .matrix ∧
      r.record.sub = code ∧ r.atNext = true) ∧
    (code = 0 ∨ code = 0x53 ∨ code = 0x0B → x.due = w.due)) ∧
  (∀ (s : State) (id : WaveId) (w : Wave) (t : Trap), s.wave id = some w → w.runs = true → w.hand = none → w.matrixDue = some t →
    exec (.matrixTrap id) s = .next ((s.setWave id { w with due := w.due.eraseP fun t => t.cause == .matrix }).takeTrap id t))

/-- R224 to R226: where no wave of a hearth has been pre-empted or halted by a debugger, its quiescent point changes nothing. Where one has, an MMA of such a
wave that runs stands after `n` groups, and reports what it has completed or failed by then. Then the operations of those waves that have not begun to
store leave the queue and are kept, their tokens become SUSPENDED, and their tiles are saved: those of a wave that has been pre-empted become FREE, those
of a halted one stay, and no other tile changes. -/
def Sys2Proof.Claims.HearthQuiesces : Prop :=
  ∀ (s : State) (d h n : Nat),
    let ws := s.quiescing (d, h)
    (ws = [] → exec (.hearthQuiescent d h n) s = .next s) ∧
    (ws ≠ [] → ∃ u t : State, exec (.hearthQuiescent d h n) s = .next t ∧
      ((∀ m o, Claims.Head s (d, h) m o → m.begun = false ∨ o.wave ∉ ws ∨ n ≤ m.fed ∨ ∀ a b ix fb semi idx, m.kind ≠ .mma a b ix fb semi idx) → u = s) ∧
      (∀ m o a b ix fb semi idx, Claims.Head s (d, h) m o → m.begun = true → o.wave ∈ ws → m.fed < n → m.kind = .mma a b ix fb semi idx →
        (∀ e, s.mmaRun (d, h) m o (some n) = .error e → u = (if e.2.1 = 5 then s.spoilTile (d, h) m.tile else s).mxDone (d, h) m o e.1 e.2) ∧
        (∀ r, s.mmaRun (d, h) m o (some n) = .ok r →
          let v : State := { (s.modHearth (d, h) fun x => x.modTile m.tile fun _ => r.1).modMx (d, h) m.id fun _ => r.2.1 with fresh := s.fresh + 1 }
          u = if r.2.2 then (v.noteEngine o r.2.1.ev).mxDone (d, h) m o cOK (7, 0, 0, 0) else v)) ∧
      let out := (u.hearth (d, h)).queue.filter (u.saves ws)
      (t.hearth (d, h)).queue = (u.hearth (d, h)).queue.filter (fun m => !out.any fun x => x.id == m.id) ∧
      t.suspended = u.suspended ++ out.filterMap (fun m => (u.op m.id).map fun o => (o.wave, { m with begun := false, spoiled := false })) ∧
      (∀ m ∈ out, ∀ o w, u.op m.id = some o → u.wave o.wave = some w → ∃ x, t.wave o.wave = some x ∧ sget {} x.toks m.tok.toNat = ⟨.suspended, 0⟩) ∧
      (∀ k, k < 4 → k < (u.hearth (d, h)).tiles.length →
        ((∀ id, ((u.hearth (d, h)).tile k).owner = some id → id ∉ ws) → (t.hearth (d, h)).tile k = (u.hearth (d, h)).tile k) ∧
        (∀ id w, ((u.hearth (d, h)).tile k).owner = some id → id ∈ ws → u.wave id = some w →
          ((∀ x ∈ u.savedTiles, x.1 = id → x.2.1 ≠ k) → (id, k, (u.hearth (d, h)).tile k) ∈ t.savedTiles) ∧
          (t.hearth (d, h)).tile k = if w.resident then (u.hearth (d, h)).tile k else {})))

/-- R207, R208, R221, R222, R224 to R226: a hearth's queue and its quiescent point. -/
def Obligations.HearthQueues : Prop := Claims.HearthQueue ∧ Claims.HearthQuiesces

/-! Launches, waves and their registers. -/

/-- R326, R376, R377, R114, R270: LAUNCH goes in flight with its address and entry, or traps MISALIGN. VREGS refuses a size that is no multiple of 8 from 8 to
256 with BAD_SIZE, makes an allocation smaller at once, refuses with NO_RESOURCE what can never be met, for want of lines, of pages or of entries in its image's page list (R270), and else grows at once or parks. A growth frees what it can of its
core's carve, takes what it then finds free, and never lowers an allocation that another split has raised (the model's choice, log entry 65); a parked growth that can be
met is, with its status, ends with NO_RESOURCE where it can never be met any more, and else evicts what it may; a register-evicted wave that could issue takes its reservation again when it is free.
That the MISALIGN of LAUNCH has no field and the path's lanes as its mask is the model's reading (log entry 53); which of equal waves loses its reservation
first, and which wave counts as growing, are its choices (log entry 95), and so is that a growth and a reservation taken again make room in the register cache
(log entry 87). -/
def Obligations.LaunchAndVregs : Prop :=
  (∀ (h : Hdr) (d a : BitVec 7) (entry : Option (BitVec 30)) s c, s.clears (.launch h d a entry) = some c →
    let i := Instr.launch h d a entry
    let t := s.beginIssue c.id
    (c.sel = 0 → exec i s = .next (t.issued i c (nextPc c.pc))) ∧
    (c.sel ≠ 0 → ((c.sPair a).toNat % 256 ≠ 0 ∨ 2 ^ 56 ≤ (c.sPair a).toNat) → Claims.Traps i s c .misalign 0 .none c.mask (c.sPair a)) ∧
    (c.sel ≠ 0 → (c.sPair a).toNat % 256 = 0 → (c.sPair a).toNat < 2 ^ 56 → exec i s =
      .next ((t.addOp (c.newOp t (.launch (c.sPair a).toNat (entry.map (dispPc c.pc)) d))).issued i c (nextPc c.pc)))) ∧
  (∀ (h : Hdr) (d : BitVec 7) (n : Opnd) (tmo : BitVec 5) s c, s.clears (.vregs h d n tmo) = some c →
    let i := Instr.vregs h d n tmo
    let t := s.beginIssue c.id
    let v := Claims.sraw c n 1
    let old := c.w.valloc
    let is : State → Prop := fun u => exec i s = .next (u.issued i c (nextPc c.pc))
    let pages := pagesOf (waveImageBytes c.w.width v - t.ownBytes c.id c.w) - c.w.gpages.length
    let never := 2048 * (t.core c.w.core).rcache < regLines c.w.width v c.w.salloc ∨
      448 < c.w.pages.length + c.w.gpages.length + pages ∨ t.takePages c.id.grid pages = none
    (c.sel = 0 → is t) ∧
    (c.sel ≠ 0 → ¬(v % 8 = 0 ∧ 8 ≤ v ∧ v ≤ 256) → is (t.putS c.id d (status 0x46 old))) ∧
    (c.sel ≠ 0 → v % 8 = 0 → 8 ≤ v → v ≤ 256 →
      (v = old → is (t.putS c.id d (status cOK old))) ∧
      (v < old → is ((t.shrink c.id v).putS c.id d (status cOK v))) ∧
      (old < v → never → is (t.putS c.id d (status cNO_RESOURCE old))) ∧
      (old < v → ¬never → (∀ u, t.grow c.id v = some u → is (u.putS c.id d (status cOK v))) ∧
        (t.grow c.id v = none → is ((t.growEvict c.id v).park c (.growth v d (c.now + 2 ^ tmo.toNat))))))) ∧
  (∀ (s : State) (id : WaveId) (w : Wave) (n : Nat), s.wave id = some w → w.valloc ≤ n → w.evicted = false →
    let u := s.evictFor w.core id (regLines w.width n w.salloc - w.reserve) (s.wavesOn w.core).length
    s.growEvict id n = u ∧ (u.regFree w.core < regLines w.width n w.salloc - w.reserve → s.grow id n = none) ∧
    (∀ t, s.grow id n = some t → u.regFree w.core ≥ regLines w.width n w.salloc - w.reserve ∧
      w.pages.length + w.gpages.length + (pagesOf (waveImageBytes w.width n - u.ownBytes id w) - w.gpages.length) ≤ 448 ∧ ∃ (ps : List Nat) (r v : State) (x y z : Wave),
      u.takePages id.grid (pagesOf (waveImageBytes w.width n - u.ownBytes id w) - w.gpages.length) = some (ps, r) ∧ t = v.makeRoom w.core ∧
      v = (r.putWavePages id w.pages (w.gpages ++ ps)).modWave id (fun w => { w with valloc := n, evicted := false }) ∧
      u.wave id = some x ∧ v.wave id = some y ∧ t.wave id = some z ∧ y.valloc = n ∧ y.evicted = false ∧ y.vregs = x.vregs ∧ y.sregs = x.sregs ∧
      z = { y with away := z.away, clean := z.clean })) ∧
  (∀ (s : State) (id : WaveId) (w : Wave) (m n : Nat), s.wave id = some w → w.valloc = m → n ≤ m → ∀ t x, s.grow id n = some t → t.wave id = some x →
    x.valloc = m) ∧
  (∀ (s : State) (p : PathId) (w : Wave) (n t : Nat) (d : BitVec 7), s.wave p.wave = some w → w.resident = true → w.dbg = false →
    w.waitsOf p.split = [.growth n d t] →
    (s.growGoes p.wave n = false → exec (.vregsGrowthMet p) s = .next s) ∧
    (let m := max n w.valloc
      let pages := pagesOf (waveImageBytes w.width m - s.ownBytes p.wave w) - w.gpages.length
      let never := 2048 * (s.core w.core).rcache < regLines w.width m w.salloc ∨ 448 < w.pages.length + w.gpages.length + pages ∨
        s.takePages p.wave.grid pages = none
      (s.grow p.wave n = none → never → exec (.vregsGrowthMet p) s =
        .next (s.modWave p.wave fun w => w.endWaits fun w x => if x = .growth n d t then some [(d, status cNO_RESOURCE w.valloc)] else none)) ∧
      (s.grow p.wave n = none → ¬never → s.growGoes p.wave n = true → exec (.vregsGrowthMet p) s = .next (s.growEvict p.wave n))) ∧
    (∀ u, s.grow p.wave n = some u → exec (.vregsGrowthMet p) s =
      .next (u.modWave p.wave fun w => w.endWaits fun w x => if x = .growth n d t then some [(d, status cOK w.valloc)] else none))) ∧
  (∀ (s : State) (id : WaveId) (w : Wave), s.wave id = some w →
    let u := s.evictFor w.core id w.reserve (s.wavesOn w.core).length
    ((w.evicted = false ∨ w.resident = false ∨ w.wantsIssue = false) → exec (.waveReserveAgain id) s = .next s) ∧
    (w.evicted = true → w.resident = true → w.wantsIssue = true →
      (w.reserve ≤ u.regFree w.core → exec (.waveReserveAgain id) s = .next ((u.modWave id fun x => { x with evicted := false }).makeRoom w.core)) ∧
      (u.regFree w.core < w.reserve → exec (.waveReserveAgain id) s = .next u)))

/-- R37, R97, R98, R387: a device-side launch is accepted once its wave's earlier outbound accesses have performed: at depth 10 it is refused with DEPTH_LIMIT, where its
record does not translate with 0x42, where its home is down with DIE_OFFLINE, where a line of it is uncorrectable with DATA_ERROR; else the record that stands there is
checked and queued. A record refused changes nothing; one accepted is a new grid of its session, next in the session's sequence, that waits for exactly the
earlier launches that it depends on, but for its ancestors; a launch is ready once all of these have retired.
That a child launch has tag 0 is the model's reading (log entry 23), and what counts as absent when a launch is accepted and which check of the record comes
first are its choices (log entries 68, 69). -/
def Sys2Proof.Claims.LaunchAccepted : Prop :=
  (∀ (s : State) (o : Op) (g : Grid) (addr : Nat) (entry : Option PC) (st : BitVec 7), s.op o.id = some o → o.kind = .launch addr entry st →
    s.grid o.wave.grid = some g →
    let done : State → Word → Prop := fun u x => exec (.launchAcceptance o.id) s =
      .next (((u.putStatus o.wave st x).opDone o.id).endBlock o.wave.grid o.wave.block)
    (s.outboundClear o = false → exec (.launchAcceptance o.id) s = .next s) ∧
    (s.outboundClear o = true → 10 ≤ g.depth → done s (status cDEPTH 0)) ∧
    (s.outboundClear o = true → g.depth < 10 →
      (s.seek o o.space addr needR = .wait → exec (.launchAcceptance o.id) s = .next s) ∧
      (s.seek o o.space addr needR = .fail → done s (status 0x42 0)) ∧
      (∀ pa, s.seek o o.space addr needR = .ok pa →
        (s.lineUp (pa / 128) = false → done s (status cOFFLINE 0)) ∧
        (s.lineUp (pa / 128) = true → (∃ l ∈ runLines pa 256, l ∈ s.badLines) → done s (status cDATA 0)) ∧
        (s.lineUp (pa / 128) = true → (∀ l ∈ runLines pa 256, l ∉ s.badLines) →
          let r := s.accept g.session (s.devRdN pa 256) entry (g.depth + 1) (some o.wave.grid) 0
          done r.1 r.2)))) ∧
  (∀ (s : State) (session depth : Nat) (bs : List Byte) (entry : Option DWord) (parent : Option Nat) (tag : DWord) (x : Session),
    tget s.sessions session = some x →
    (∀ off, parseRecord bs entry = .error off → s.accept session bs entry depth parent tag = (s, status 0x40 off)) ∧
    (∀ r, parseRecord bs entry = .ok r →
      (parent = none → r.cls < x.cls → s.accept session bs entry depth parent tag = (s, status 0x43 x.cls)) ∧
      ((parent = none → x.cls ≤ r.cls) →
        (∀ why, s.never r = some why → s.accept session bs entry depth parent tag = (s, status cNO_RESOURCE why)) ∧
        (s.never r = none → 4096 ≤ x.launches → s.accept session bs entry depth parent tag = (s, status 0x41 0)) ∧
        (s.never r = none → x.launches < 4096 → ∃ (t : State) (g : Grid), s.accept session bs entry depth parent tag =
            (t, status cOK ((x.seq + 1).toNat % 2 ^ 24)) ∧
          t = { s with grids := t.grids, nextGrid := s.nextGrid + 1, sessions := t.sessions } ∧ t.grid s.nextGrid = some g ∧
          (∀ k, k ≠ s.nextGrid → t.grid k = s.grid k) ∧
          tget t.sessions session = some { x with seq := x.seq + 1, launches := x.launches + 1 } ∧
          g.session = session ∧ g.seq = (x.seq + 1).toNat ∧ g.rec_ = r ∧ g.depth = depth ∧ g.parent = parent ∧ g.tag = tag ∧
          g.admitted = 0 ∧ g.ended = [] ∧ (g.met = none ↔ g.deps ≠ []) ∧
          (∀ e, e ∈ g.deps ↔ ∃ y, (e, y) ∈ s.grids ∧ y.session = session ∧ e ∉ s.lineage 12 parent ∧ r.waitsFor y.rec_ = true))))) ∧
  (∀ (s : State) (n : Nat) (g : Grid), s.grid n = some g →
    (g.met = none → (∀ e ∈ g.deps, s.grid e = none) → exec (.launchDependencesMet n) s = .next (s.modGrid n fun g => { g with met := some s.now })) ∧
    ((g.met ≠ none ∨ ∃ e ∈ g.deps, s.grid e ≠ none) → exec (.launchDependencesMet n) s = .next s))

/-- R94 to R96, R103, R38: the launch record. It is refused at the offset of its first field, in the order of offsets, whose value is not allowed; one that is not has the fields
that stand at their offsets, with as many range and barrier entries as it says. What can never run is refused with the first of: no slots for a block, no lines to pin, no pantry,
no register lines, no context area for a group, no room for the whole grid of a grid barrier.
That a width that is itself invalid is named before the threads that go with it (log entry 69), that a barrier named twice fails at the later entry (log entry 98) and what counts as absent
(log entry 68) are the model's choices. -/
def Sys2Proof.Claims.LaunchRecord : Prop :=
  (∀ (bs : List Byte) (entry : Option DWord), bs.length = 256 →
    let f : Nat → Nat → Nat := fun off n => ofLe ((bs.drop off).take n)
    let W := f 0x26 1
    let wide := W = 8 ∨ W = 16 ∨ W = 32 ∨ W = 64
    let blocks := f 0x1C 4 * f 0x20 2 * f 0x22 2
    let cores := 2 ^ (f 0x2B 1 / 4 % 4)
    let group := f 0x2B 1 / 16 % 8 + 1
    let lo : Nat → Nat := fun x => x % 2 ^ 48 * 256
    let hi : Nat → Nat := fun x => lo x + x / 2 ^ 53 * (256 * 16 ^ (x / 2 ^ 50 % 8))
    let first : Nat → Nat := fun x => x / 2 ^ 8 % 8192
    let last : Nat → Nat := fun x => x / 2 ^ 21 % 8192
    let lanes : Nat → Nat := fun x => x / 2 ^ 34 % 128
    let level : Nat → Nat := fun x => x / 64 % 4
    let range : Nat → Prop := fun i => let x := f (0x38 + 8 * i) 8
      if i < f 0x2F 1 then 1 ≤ x / 2 ^ 53 ∧ x / 2 ^ 48 % 4 ≠ 0 ∧ hi x ≤ 2 ^ 56 else x = 0
    let bar : Nat → Prop := fun i => let x := f (0xB8 + 6 * i) 6
      if i < f 0x2E 1 then x / 2 ^ 41 % 128 = 0 ∧ x % 64 < (if level x = 1 then 16 else if level x = 2 then 8 else 4) ∧
        (if level x = 0 then 1 ≤ lanes x ∧ lanes x ≤ W else lanes x = 0) ∧ first x ≤ last x ∧ last x < f 0x24 2 / W ∧
        (last x - first x + 1) * (if level x = 2 then group else if level x = 3 then blocks else 1) ≤ 36864 ∧
        ∀ j, j < i → f (0xB8 + 6 * j) 6 % 256 ≠ x % 256
      else x = 0
    let checks : List (Nat × Prop) :=
      [(0x00, entry = none → pcOk (BitVec.ofNat 64 (f 0x00 8)) = true), (0x08, pcOk (BitVec.ofNat 64 (f 0x08 8)) = true),
        (0x10, f 0x10 8 % 4096 = 0 ∧ f 0x10 8 < 2 ^ 56), (0x18, 1 ≤ f 0x18 4), (0x1C, 1 ≤ f 0x1C 4 ∧ blocks ≤ 2 ^ 32 - 1), (0x20, 1 ≤ f 0x20 2),
        (0x22, 1 ≤ f 0x22 2), (0x24, (8 ≤ f 0x24 2 ∧ f 0x24 2 ≤ 36864) ∧ (wide → f 0x24 2 % W = 0)), (0x26, wide), (0x27, 1 ≤ f 0x27 1 ∧ f 0x27 1 ≤ 32),
        (0x28, 1 ≤ f 0x28 1 ∧ f 0x28 1 ≤ 16), (0x29, 3 ≤ f 0x29 1 ∧ f 0x29 1 ≤ 9), (0x2A, f 0x2A 1 ≤ 6 ∧ f 0x29 1 + f 0x2A 1 ≤ 9),
        (0x2B, cores ≤ 4 ∧ f 0x2B 1 < 128 ∧ cores * group ≤ 8), (0x2C, f 0x2C 1 ≤ 192 ∧ f 0x2C 1 ≤ 32 * f 0x2A 1), (0x2D, f 0x2D 1 < 16),
        (0x2E, f 0x2E 1 ≤ 12), (0x2F, f 0x2F 1 ≤ 16)]
      ++ ((List.range 16).map fun i => (0x38 + 8 * i, range i)) ++ ((List.range 12).map fun i => (0xB8 + 6 * i, bar i))
    (∀ off, parseRecord bs entry = .error off ↔ ∃ k p, checks[k]? = some (off, p) ∧ ¬p ∧ ∀ (j : Nat) (q : Nat × Prop), j < k → checks[j]? = some q → q.2) ∧
    (∀ r, parseRecord bs entry = .ok r → (∀ q ∈ checks, q.2) ∧
      r.entry = entry.getD (BitVec.ofNat 64 (f 0x00 8)) ∧ r.handler = BitVec.ofNat 64 (f 0x08 8) ∧ r.ctxBase = f 0x10 8 ∧ r.ctxLen = f 0x18 4 ∧
      r.gx = f 0x1C 4 ∧ r.gy = f 0x20 2 ∧ r.gz = f 0x22 2 ∧ r.threads = f 0x24 2 ∧ r.width = W ∧ r.vregs = 8 * f 0x27 1 ∧ r.sregs = 8 * f 0x28 1 ∧
      r.rcache = f 0x29 1 ∧ r.pantry = f 0x2A 1 ∧ r.cls = f 0x2B 1 % 4 ∧ r.cores = cores ∧ r.group = group ∧ r.share = f 0x2C 1 ∧
      r.repeatable = (f 0x2D 1).testBit 0 ∧ r.check = (f 0x2D 1).testBit 1 ∧ r.ftz32 = (f 0x2D 1).testBit 2 ∧ r.ftz16 = (f 0x2D 1).testBit 3 ∧
      r.arg = BitVec.ofNat 64 (f 0x30 8) ∧
      r.ranges = (List.range (f 0x2F 1)).map (fun i => let x := f (0x38 + 8 * i) 8
        { lo := lo x, hi := hi x, rd := (x / 2 ^ 48).testBit 0, wr := (x / 2 ^ 48).testBit 1 }) ∧
      r.bars = (List.range (f 0x2E 1)).map fun i => let x := f (0xB8 + 6 * i) 6
        { bar := ⟨BitVec.ofNat 2 (level x), BitVec.ofNat 6 x⟩, lanes := lanes x, first := first x, last := last x })) ∧
  (∀ (s : State) (r : Record),
    let n := r.perCore
    let slots := if r.repeatable then 24 * (64 / r.width) / ((max n 1 + 5) / 6) else 144 * (64 / r.width) / max n 1
    s.never r =
      if slots = 0 then some 1
      else if 8 * (3072 - 256 * r.rcache - 256 * r.pantry - 256) < 16 * n then some 2
      else if 32 * r.pantry < r.share then some 3
      else if 2048 * r.rcache < n * regLines r.width r.vregs r.sregs then some 4
      else if 4096 * r.ctxLen < r.groupBytes 0 then some 5
      else if r.usesGrid ∧ (s.holds r = false ∨ 4096 * r.ctxLen < ((List.range r.ngroups).map r.groupBytes).sum) then some 6
      else none)

/-- R37, R38, R94 to R98, R103, R387: the launch record, when a launch is accepted or refused, and what it waits for. That a child launch has tag 0 is the
model's reading (log entry 23), and what counts as absent when a launch is accepted and which check of the record comes first are its choices (log
entries 68, 69). -/
def Obligations.LaunchAcceptance : Prop := Claims.LaunchAccepted ∧ Claims.LaunchRecord

/-- R38, R101 to R105, R107, R108: a group whose turn has come is placed, and no other is. A cluster group is pre-empted, or its whole grid where it uses a grid barrier, only for a launch
that no free cores suit, from a position that drains for it, and then holds no core; what drains takes no block of another launch; its slice has run once it has been resident for a slice while a lesser class waits. A position of cores drains together for the launch; cores that are empty are carved for it, and its group placed on them when its turn has come (log entry 90). A group placed is resident, its blocks at homes of their own in one cluster, and a wave placed starts at the record's entry with every lane, its
argument in s0 and s1.
Which groups may be pre-empted, which cores are carved and that a launch has one drain is the model's reading (log entry 47); that the event of an admission names
the homes of the blocks, and a free draw those of a grid's other groups, is its reading of R8 and R101 (log entry 22); its choice is that a slice is that of the victim's session (log entry 94). -/
def Obligations.AdmissionAndPreemption : Prop :=
  (∀ (s : State) (g gid die : Nat) (homes : List Nat) (resume : Bool),
    let x : Waiting := ⟨g, gid, resume⟩
    let i := if resume then Instr.blockResume g gid die homes else .blockAdmit g gid die homes
    ((s.turn x = false ∨ s.placeWhole x die homes = none) → exec i s = .next s) ∧
    (∀ t, s.turn x = true → s.placeWhole x die homes = some t → exec i s = .next (t.undrain g))) ∧
  (∀ (s t : State) (g gid die : Nat) (homes : List Nat) (x : Grid), s.grid g = some x → s.admitGroup g gid die homes = some t →
    t.group g gid = some { die := die, base := homes.headD 0, since := s.now } ∧ s.plan g gid die homes false ≠ none ∧
    homes.length = (x.rec_.groupBlocks gid).length ∧ homes.Nodup ∧ ∀ h ∈ homes, h < 48 ∧ h % x.rec_.cores = 0 ∧ h / 8 = homes.headD 0 / 8) ∧
  (∀ (r : Record) (core : CoreId) (slot pos image age now : Nat), r.width ≤ 64 →
    let w := r.newWave core slot pos image age now
    w.core = core ∧ w.slot = slot ∧ w.valloc = r.vregs ∧ w.salloc = r.sregs ∧ w.sreg 0 = r.arg.extractLsb' 0 32 ∧ w.sreg 1 = r.arg.extractLsb' 32 32 ∧
    (∀ k, 2 ≤ k → w.sreg k = 0) ∧ (∀ k l, w.vreg k l = 0) ∧ (∀ p, p < 7 → w.predMask p = 0) ∧ (∀ l k, (w.bind l k).st = .unbound) ∧
    (w.split 0).st = .running ∧ (w.split 0).p1.pc = r.entry ∧ (∀ l, (w.split 0).p1.mask.getLsbD l = decide (l < r.width)) ∧
    (∀ k, 0 < k → (w.split k).st = .free)) ∧
  (∀ (s : State) (g gid : Nat) (k : Group), s.group g gid = some k →
    let ok := k.resident = true ∧ ∃ x ∈ s.stuck, s.victimFor g gid x = true ∧
      ∀ y ∈ s.groups, y.2.resident = true → s.victimFor y.1.1 y.1.2 x = true → s.victimBefore y ((g, gid), k) = false
    (¬ok → exec (.preemption g gid) s = .next s) ∧
    (ok → ∀ y, s.grid g = some y → ∃ (t : State) (q : Group), exec (.preemption g gid) s = .next t ∧ t = s.preempt g gid ∧ t.group g gid = some q ∧
      q.resident = false ∧
      (y.rec_.usesGrid = true → ∀ n q, s.group g n = some q → ∃ p, t.group g n = some p ∧ p.resident = false) ∧
      (∀ m n q, s.group m n = some q → (m ≠ g ∨ (y.rec_.usesGrid = false ∧ n ≠ gid)) → ∃ p, t.group m n = some p ∧ p.resident = q.resident))) ∧
  (∀ (s : State) (g gid : Nat) (x : Waiting), s.victimFor g gid x = true ↔ s.clsOf x.g < s.clsOf g ∧
    (s.clsOf x.g = 0 ∨ ((∃ k, s.group g gid = some k ∧ k.expired = true) ∧ s.anyDbg g gid = false)) ∧ s.onDrain g gid x.g = true ∧ s.drainsHigh x.g = false) ∧
  (∀ (s : State) (g l : Nat) (x : Grid) (c : CoreId) (ps : List Placing), (s.core c).drain = some l → s.isWaiting l = true → l ≠ g →
    s.coreTakes g x c ps = none) ∧
  (∀ (s : State) (g gid : Nat) (k : Group), s.group g gid = some k →
    let ok := k.resident = true ∧ k.expired = false ∧ k.since + s.sliceOf g ≤ s.now ∧ s.anyDbg g gid = false ∧ ∃ x ∈ s.stuck, s.clsOf x.g < s.clsOf g
    (ok → exec (.timeSliceExpiry g gid) s = .next (s.modGroup g gid fun k => { k with expired := true })) ∧
    (¬ok → exec (.timeSliceExpiry g gid) s = .next s)) ∧
  (∀ (s : State) (l die : Nat) (homes : List Nat) (g : Grid) (x : Waiting), s.grid l = some g →
    s.stuck.find? (fun x => x.g == l && s.stuck.all fun y => y.g != l || !s.before y x) = some x →
    legalHomes g.rec_.cores (g.rec_.groupBlocks x.gid).length homes = true → homes ≠ [] → g.rec_.usesGrid = false →
    let cs := onDie die (coresAt g.rec_.cores homes)
    let t := cs.foldl (fun (s : State) c => s.modCore c fun k =>
      { k with rcache := g.rec_.rcache, pantry := g.rec_.pantry, store := [], floors := [], updq := [], drain := some l }) (s.emptyCaches fun c => cs.contains c)
    (∃ c ∈ cs, (s.core c).rcache ≠ g.rec_.rcache ∨ (s.core c).pantry ≠ g.rec_.pantry) →
    (∀ c ∈ cs, s.inService c.die c.core = true ∧ s.wavesOn c = [] ∧ s.quiescing (c.die, c.core / 2) = []) →
    (∀ k ∈ s.cores, ∀ m, k.2.drain = some m → s.isWaiting m = true → m = l ∧ s.inService k.1.die k.1.core = true) →
    (s.turn x = false → exec (.recarve l (onDie die homes)) s = .next s) ∧
    (s.turn x = true → exec (.recarve l (onDie die homes)) s = .next (((t.placeWhole x die homes).map fun u => u.undrain l).getD s))) ∧
  (∀ (s : State) (l die : Nat) (homes : List Nat) (g : Grid) (x : Waiting), s.grid l = some g →
    s.stuck.find? (fun x => x.g == l && s.stuck.all fun y => y.g != l || !s.before y x) = some x →
    legalHomes g.rec_.cores (g.rec_.groupBlocks x.gid).length homes = true → homes ≠ [] →
    let cs := onDie die (coresAt g.rec_.cores homes)
    (∃ c ∈ cs, s.coreEmpty c = false) →
    (s.mayDrain l die g.rec_ cs = true → exec (.recarve l (onDie die homes)) s =
      .next (cs.foldl (fun s c => s.modCore c fun k => { k with drain := some l }) (s.displace l cs))) ∧
    (s.mayDrain l die g.rec_ cs = false → exec (.recarve l (onDie die homes)) s = .next s) ∧
    ((∀ k ∈ s.cores, k.2.drain = none) → s.displace l cs = s ∧ (s.mayDrain l die g.rec_ cs = true ↔ ∀ c ∈ cs, s.inService c.die c.core = true))) ∧
  (∀ (s : State) (x : Waiting), s.turn x = true ↔ x ∈ s.waiting ∧ ∀ y ∈ s.waiting, s.before y x = true → s.fits y = none ∧
    ∀ p ∈ s.carvable y, s.carveAdmit y p.1 (s.carveOrder y p) = none)

/-- R39, R40, R115, R204, R208, R270: a wave ends once all its lanes have ended and nothing that it awaits is in flight, but COMMITs without a pair, ABORTs and what counts in no counter and writes no scalar; its tiles become free. A grid retires once its blocks and
its children have ended, no operation of it is in flight and the events that it has met in this clock are counted (R204); its session is told and counts one launch less, and where it waits to close it answers and goes once no launch, copy or held reply of it is left (R280). A spill takes the pages that the cores of its buffers lack into the page lists of the images that spill there,
or its wave parks, with one CONTEXT_LOW record; a wave parked for a context page halts after 2^31 clocks, and its spill is tried again once a page is free.
That the LAUNCH_DONE record has zeros in the fields that no rule fills (log entry 23) and which page lists a spill uses (log entry 13) are the model's
readings. -/
def Obligations.WaveAndGridEnds : Prop :=
  (∀ (s : State) (id : WaveId) (w : Wave), s.wave id = some w →
    (s.mayEnd id w = false → exec (.waveEnds id) s = .next s) ∧
    (s.mayEnd id w = true → (s.waves.map Prod.fst).Nodup → exec (.waveEnds id) s = .next (s.endWave id) ∧ (s.endWave id).wave id = none ∧
      w.lanes = 0 ∧ (∀ k, ∀ t ∈ ((s.endWave id).hearth k).tiles, t.owner ≠ some id))) ∧
  (∀ (s : State) (id : WaveId) (w : Wave), s.mayEnd id w = true ↔ w.lanes = 0 ∧ (∀ t ∈ w.toks, t.2.st ≠ .pending ∧ t.2.st ≠ .suspended) ∧
    ∀ o ∈ s.ops, o.wave = id → (∃ level st snap, o.kind = .commit level none st snap) ∨ (∃ level st, o.kind = .abort level st) ∨
      (∃ accs, o.kind = .strongStore 0 accs) ∨ (∃ accs ty n d, o.kind = .strongLoad 0 accs ty n false d) ∨
      ∃ level st n h, o.kind = .acquire level st n true h) ∧
  (∀ (s : State) (n : Nat) (x : Session), tget s.sessions n = some x →
    let done := x.launches = 0 ∧ (∀ rr er, x.rings = some (rr, er) → s.ringFull rr = false) ∧ (∀ h ∈ s.heldReplies, h.session ≠ n) ∧
      ∀ k ∈ s.copies, k.reply.session ≠ n
    (x.closing = none → s.closeIfDone n = s) ∧
    (∀ r, x.closing = some r → (done → s.closeIfDone n = { s.deliver r with sessions := tdel (s.deliver r).sessions n }) ∧
      (¬done → s.closeIfDone n = s))) ∧
  (∀ (s : State) (n : Nat) (g : Grid) (x : Session), s.grid n = some g → tget s.sessions g.session = some x →
    let ok := g.ended.length = g.rec_.nblocks ∧ (∀ o ∈ s.ops, o.wave.grid ≠ n) ∧ (∀ y ∈ s.grids, y.2.parent ≠ some n) ∧
      ∀ k ∈ s.cores, ∀ e ∈ k.2.evq, e.wave.grid ≠ n
    let told := s.postEvent g.session g.tag (List.replicate 48 0 ++ ({ type := 0x30 } : FaultRecord).toBytes)
    (¬ok → exec (.gridRetire n) s = .next s) ∧
    (ok → ∃ y, tget told.sessions g.session = some y ∧ y.launches = x.launches ∧ exec (.gridRetire n) s =
      .next (({ told with grids := tdel told.grids n, sessions := tset told.sessions g.session { y with launches := x.launches - 1 } } :
        State).closeIfDone g.session))) ∧
  (∀ (s : State) (id : WaveId) (w : Wave) (t : Nat), s.wave id = some w → w.ctxPark = some t →
    let ends := (s.die w.core.die).edge = true ∨ (s.die w.core.die).power = .idle
    ((w.dbg = true ∨ ¬ends ∨ s.clk w.core.die < t + 2 ^ 31) → exec (.contextPageTimeout id) s = .next s) ∧
    (w.dbg = false → ends → t + 2 ^ 31 ≤ s.clk w.core.die → ∃ (u : State) (x : Wave) (n : Nat) (r : FaultRecord), exec (.contextPageTimeout id) s = .next u ∧ u.wave id = some x ∧
      x.runs = false ∧ x.ctxPark = none ∧ u.records = s.records ++ [(n, r)] ∧ r.type = 0x29) ∧
    (w.resident = false → exec (.contextPageFreed id) s = .next (s.spillAgain id)) ∧
    (w.resident = true → w.dbg = true → exec (.contextPageFreed id) s = .next (s.spillSaved id false)) ∧
    (w.resident = true → w.dbg = false → (∀ c ∈ s.spillCores id w, s.spillLack c = 0) →
      exec (.contextPageFreed id) s = .next (s.modWave id fun w => { w with ctxPark := none })) ∧
    (w.resident = true → w.dbg = false → (∃ c ∈ s.spillCores id w, s.spillLack c ≠ 0) → exec (.contextPageFreed id) s = .next (s.spill id))) ∧
  (∀ (s : State) (id : WaveId) (w : Wave), s.wave id = some w →
    let got := stepsM (fun s c => stepsM (fun s x => s.takeLack c x) (s.spillOwners c id) s) (s.spillCores id w) s
    ((∀ c ∈ s.spillCores id w, s.spillLack c = 0) → s.spill id = s) ∧
    ((∃ c ∈ s.spillCores id w, s.spillLack c ≠ 0) →
      (∀ u, got = some u → s.spill id = u.modWave id fun w => { w with ctxPark := none }) ∧ (got = none → s.spill id = s.parkSpill id w)) ∧
    (∀ c, s.takeLack c (.inl id) = s.wavePages id w (min (s.spillLack c) (s.savedLack id w true)) ∧
      ∀ g b, s.takeLack c (.inr (g, b)) = s.blockPages g b (min (s.spillLack c) (s.blockLack g b))) ∧
    (∀ n u, s.wavePages id w n = some u → ∃ x, u.wave id = some x ∧ x.pages.length = w.pages.length + n ∧ x.gpages = w.gpages ∧
      x.pages.length + x.gpages.length ≤ 448)) ∧
  (∀ (s : State) (id : WaveId) (w : Wave), s.wave id = some w → ∃ (u : State) (x : Wave), s.parkSpill id w = u ∧ u.wave id = some x ∧
    x.ctxPark = some (w.ctxPark.getD (if w.dbg then 0 else s.clk w.core.die)) ∧
    (w.ctxPark.isSome = true → u.records = s.records) ∧ (w.ctxPark = none → ∃ (n : Nat) (r : FaultRecord), u.records = s.records ++ [(n, r)] ∧ r.type = 0x2A)) ∧
  (∀ (s : State) (id : WaveId) (w : Wave), s.wave id = some w → w.ctxPark = none →
    exec (.contextPageTimeout id) s = .next s ∧ exec (.contextPageFreed id) s = .next s)

/-! Special registers and messages. -/

/-- R28, R202, R258, R334 to R336: what each special register reads as, and what MFS and MTS do: MFS writes after 4 clocks, or a scalar after 2, a word or the pair of a 64-bit
register; MTS of a register that it cannot write does nothing; MTS %excctl sets SEL at once; the counting state of the core takes the writes of a clock at its end, in ascending
partition order: a threshold re-arms its class, and a window starts anew in the next clock with its count 0 and its class armed. %clock is the clocks of the die since its last
reset, with the constant skew of the core (log entry 11). MTS %trappc stores the PC as given.
That %excctl reads SEL as it was written for 6 and 7 too is the model's choice (log entry 83). -/
def Obligations.SpecialRegisters : Prop :=
  (∀ (h : Hdr) (v : BitVec 8) (r : BitVec 7) (n : BitVec 8) (a : Opnd),
    Claims.Does (.mfs h (.v v) n) (fun c s => c.fix s 4 (vecWrites v.toNat (sregRegs n.toNat)
      (c.lanes.map fun l => (l, if n = 0 then l else c.special s n.toNat)))) ∧
    Claims.Does (.mfs h (.s r) n) (fun c s => if c.sel = 0 then s else c.fix s 2 (scaWrites r.toNat (sregRegs n.toNat) (c.special s n.toNat))) ∧
    Claims.Does (.mts h a n) (fun _ s => s) ∧
    (∀ i reg, (i = .mtsExcctl h a ∧ reg = 0x18) ∨ (i = .mtsExccount h a ∧ reg = 0x19) ∨ (i = .mtsExcwin h a ∧ reg = 0x1A) ∨
        (i = .mtsFaultmask h a ∧ reg = 0x1B) →
      Claims.Does i (fun c s =>
        let x := BitVec.ofNat 32 (c.rd1 a 1 immS)
        let t := if reg = 0x18 then s.modWave c.id fun w => { w with sel := x.extractLsb' 24 3 } else s
        if c.sel = 0 then s else t.modCore c.w.core fun k => { k with excWrites := k.excWrites ++
          [{ part := c.w.part, reg := reg, sel := if c.w.sel.toNat ≤ 5 then c.w.sel.toNat else 0, val := x }] })) ∧
    Claims.Does (.mtsTrappc h a) (fun c s =>
      if c.sel = 0 then s else s.modWave c.id fun w => { w with trappc := BitVec.ofNat 64 (c.rd1 a 2 immS) })) ∧
  (∀ (c : Ctx) (s : State),
    let k := s.core c.w.core
    let cl := k.exc.getD (if c.w.sel.toNat ≤ 5 then c.w.sel.toNat else 0) {}
    c.special s 0x01 = c.id.wave ∧ c.special s 0x02 = c.w.slot ∧ c.special s 0x03 = c.split ∧ c.special s 0x04 = c.id.block ∧
    c.special s 0x05 = c.grid.rec_.threads ∧ c.special s 0x06 = s.groupOf c.id.grid c.id.block ∧
    c.special s 0x0D = (BitVec.ofNat 64 ((s.die c.w.core.die).clk - (s.die c.w.core.die).base) + Config.clockSkew c.w.core.die c.w.core.core).toNat ∧
    c.special s 0x18 = (excctlWord k c.w.sel).toNat ∧ c.special s 0x07 = c.id.grid ∧ c.special s 0x08 = c.w.core.core ∧ c.special s 0x09 = c.w.core.die ∧
    c.special s 0x0A = c.w.width ∧ c.special s 0x0B = c.grid.depth ∧ c.special s 0x0C = c.grid.cls ∧
    c.special s 0x10 = c.w.trapcause.toNat ∧ c.special s 0x11 = c.w.trappc.toNat ∧ c.special s 0x12 = c.w.trapaddr.toNat ∧
    c.special s 0x19 = (65536 * cl.threshold + cl.count) % 2 ^ 32 ∧ c.special s 0x1A = cl.window ∧ c.special s 0x1B = k.fired.toNat ∧
    (∀ n, (excctlWord k c.w.sel).extractLsb' 24 3 = c.w.sel ∧ (n < 6 → (excctlWord k c.w.sel).getLsbD (4 * n) = (k.exc.getD n {}).ena ∧
      (excctlWord k c.w.sel).extractLsb' (4 * n + 1) 2 = (k.exc.getD n {}).act))) ∧
  (∀ (s : State) (cid : CoreId), (s.core cid).evq = [] → (s.core cid).excWrites ≠ [] → s.endClock cid = s.modCore cid fun k =>
    { ((List.range 6).flatMap fun p => k.excWrites.filter fun x => x.part == p).foldl (fun k x => k.applyExc (s.clk cid.die) x) k with excWrites := [] }) ∧
  (∀ (k : Core) (now part sel : Nat) (x : Word), k.exc.length = 6 → sel < 6 →
    (∀ n, n < 6 → ((k.applyExc now ⟨part, 0x18, sel, x⟩).exc.getD n {}).ena = x.getLsbD (4 * n) ∧
      ((k.applyExc now ⟨part, 0x18, sel, x⟩).exc.getD n {}).act = x.extractLsb' (4 * n + 1) 2 ∧
      ((k.applyExc now ⟨part, 0x18, sel, x⟩).exc.getD n {}).count = (k.exc.getD n {}).count) ∧
    ((k.applyExc now ⟨part, 0x19, sel, x⟩).exc.getD sel {}).threshold = (x.extractLsb' 16 16).toNat ∧
    ((k.applyExc now ⟨part, 0x19, sel, x⟩).exc.getD sel {}).count = (x.extractLsb' 0 16).toNat ∧
    ((k.applyExc now ⟨part, 0x19, sel, x⟩).exc.getD sel {}).armed = true ∧
    ((k.applyExc now ⟨part, 0x1A, sel, x⟩).exc.getD sel {}).window = x.toNat ∧
    ((k.applyExc now ⟨part, 0x1A, sel, x⟩).exc.getD sel {}).started = now + 1 ∧
    ((k.applyExc now ⟨part, 0x1A, sel, x⟩).exc.getD sel {}).count = 0 ∧
    ((k.applyExc now ⟨part, 0x1A, sel, x⟩).exc.getD sel {}).armed = true ∧
    (∀ n, n ≠ sel → (k.applyExc now ⟨part, 0x19, sel, x⟩).exc.getD n {} = k.exc.getD n {} ∧
      (k.applyExc now ⟨part, 0x1A, sel, x⟩).exc.getD n {} = k.exc.getD n {}) ∧
    (∀ n, (k.applyExc now ⟨part, 0x1B, sel, x⟩).fired.getLsbD n = (k.fired.getLsbD n && !x.getLsbD n)))

/-- R339 to R341, R382, R383: MSGS goes in flight with its sender word and 16 words, and is sent once every earlier outbound access of its wave has performed and every earlier message of it is
sent; MSGR takes the oldest message of its mailbox or reply slot, or writes NO_EFFECT. A mailbox takes 16 messages, first in first out; a full one gives MSG_FULL, and one on
a die that is down DIE_OFFLINE. XCINV of a firmware wave goes in flight; it shoots its pages down and writes OK.
That a message waits for every earlier message of its wave, to whatever mailbox, is the model's choice (log entry 58). -/
def Obligations.MessagesAndXcinv : Prop :=
  (∀ (h : Hdr) (d x : BitVec 7) (b : Opnd) (ps : BitVec 2),
    Claims.Does (.msgs h d x b) (fun c s => if c.sel = 0 then s else s.addOp (c.newOp s (.msgs (BitVec.ofNat 32 (Claims.sraw c b 1))
      { sender := c.w.sender c.hand, words := (List.range 16).map fun k => c.w.sreg (x.toNat + k) } d))) ∧
    Claims.Does (.msgr h d x) (fun c s =>
      let n := c.w.core.core - 48
      let box := (s.die c.w.core.die).boxes.getD n []
      let fw := c.w.firmware = true ∧ 48 ≤ c.w.core.core
      if c.sel = 0 then s
      else if fw then
        (if box = [] then s.putS c.id d (status cNO_EFFECT 0)
        else (s.modDie c.w.core.die fun k => { k with boxes := lmod k.boxes n fun _ => box.tail }).modWave c.id fun w =>
          w.takeMsg d x (box.headD ⟨0, []⟩) box.tail.length)
      else match c.w.reply with
        | none => s.putS c.id d (status cNO_EFFECT 0)
        | some m => s.modWave c.id fun w => { w with reply := none }.takeMsg d x m 0) ∧
    Claims.Does (.xcinv h d x ps) (fun c s =>
      let va := (c.sPair x).toNat
      let size := match ps.toNat with | 0 => 2 ^ 12 | 1 => 2 ^ 16 | 2 => 2 ^ 21 | _ => 2 ^ 30
      let count := (c.s (x + 3)).toNat
      if c.sel = 0 then s
      else if c.w.firmware = false then s.putS c.id d (status cNO_EFFECT 0)
      else if va % size ≠ 0 ∨ 2 ^ 56 ≤ va then s.putS c.id d (status 0x46 0)
      else if count = 0 then s.putS c.id d (status cNO_EFFECT 0)
      else s.addOp (c.newOp s (.xcinv (c.s (x + 2)).toNat va size count d)))) ∧
  (∀ (s : State) (o : Op) (box : Word) (m : Msg) (st : BitVec 7), s.op o.id = some o → o.kind = .msgs box m st →
    let ready := s.outboundClear o = true ∧ ∀ x ∈ s.earlier o, ∀ b n d, x.kind ≠ .msgs b n d
    (ready → exec (.messageSent o.id) s = .next (((s.send box m).1.putStatus o.wave st (s.send box m).2).opDone o.id)) ∧
    (¬ready → exec (.messageSent o.id) s = .next s)) ∧
  (∀ (s : State) (die n : Nat) (m : Msg) (l : List Msg), die < 4 → n < 4 → s.dies.length = 4 → (s.die die).boxes.length = 4 →
    (s.die die).boxes.getD n [] = l →
    let box := BitVec.ofNat 32 (4 * die + n)
    (s.up die = false → s.send box m = (s, status cOFFLINE 0)) ∧
    (s.up die = true → 16 ≤ l.length → s.send box m = (s, status 0x44 0)) ∧
    (s.up die = true → l.length < 16 → (s.send box m).2 = status cOK 0 ∧ ((s.send box m).1.die die).boxes.getD n [] = l ++ [m] ∧
      (s.send box m).1 = { s with dies := (s.send box m).1.dies } ∧ (∀ k, k ≠ die → (s.send box m).1.die k = s.die k) ∧
      (∀ k, k ≠ n → ((s.send box m).1.die die).boxes.getD k [] = (s.die die).boxes.getD k []))) ∧
  (∀ (s : State) (o : Op) (space va size count : Nat) (st : BitVec 7), s.op o.id = some o → o.kind = .xcinv space va size count st →
    exec (.xcinvCompletion o.id) s = .next (((s.shootdown space va (size * count) id).putStatus o.wave st (status cOK 0)).opDone o.id))

/-! Translation, fetches and traps that come later. -/

/-- R74, R92, R50, R123, R16, R124: a code line is fetched as the device level holds it, and takes its place in the L2 of its die, from where its page translates with execute permission, and stands in the fetch buffers;
where it does not translate, is uncorrectable or has a trailer that is not zero, the fetch traps, with the PC as its trap address (the model's choice, log entry 53). An L2 that
holds a line gives its copy and sets its RRPV to 0; one that does not, or that an engine's recall of the line is on its way to, takes the line from its home,
and finds an uncorrectable error there. That a fetch whose home is down waits, and that a
code line enters the L2 with RRPV 2, is the model's reading (log entry 28). An unassigned opcode is ILLEGAL. A wave is overdue 32 clocks after it became ready without an issue, if it is of the highest class of its partition. A
faulted OPEN traps XLATE with the lanes and the address of the fault once no other path of its wave is a candidate.
That the L2 of a die is one pool of lines from which nothing is evicted while it has room is the model's choice (log entry 27), and that a replay takes 16384
lines of it its reading (log entry 91). -/
def Obligations.FetchAndLateTraps : Prop :=
  (∀ (s : State) (p : PathId) (c : Ctx), ({ s with cur := p } : State).issuer = some c →
    let space := s.spaceOf c.id.grid
    let look := s.look c.w.core.die space (128 * (c.pc.toNat / 128)) needX
    let traps : Cause → Nat → Prop := fun cause sub => exec (.codeLineFetch p) s = .next (s.takeTrap c.id (c.exact cause sub .none c.mask c.pc))
    (∀ bs, (s.core c.w.core).codeLine space c.pc = some (bs, false) → exec (.codeLineFetch p) s = .next s) ∧
    (∀ bs, (s.core c.w.core).codeLine space c.pc = some (bs, true) → traps .dataError 0) ∧
    ((s.core c.w.core).codeLine space c.pc = none →
      (look = .wait → exec (.codeLineFetch p) s = .next s) ∧
      (look = .fail → traps .xlate 0) ∧
      (∀ pa, look = .ok pa → s.lineUp (pa / 128) = false → exec (.codeLineFetch p) s = .next s) ∧
      (∀ pa, look = .ok pa → s.lineUp (pa / 128) = true → s.lineBad c.w.core.die (pa / 128) = true → traps .dataError 0) ∧
      (∀ pa, look = .ok pa → s.lineUp (pa / 128) = true → s.lineBad c.w.core.die (pa / 128) = false →
        let at_ := 128 * (pa / 128)
        ((∃ k, 120 ≤ k ∧ k < 128 ∧ s.devRd (at_ + k) ≠ 0) → traps .illegal 1) ∧
        ((∀ k, 120 ≤ k → k < 128 → s.devRd (at_ + k) = 0) → exec (.codeLineFetch p) s = .next ((s.viaL2 c.w.core.die (pa / 128) 2).1.modCore c.w.core fun k =>
          { k with fetch := tset k.fetch (space, c.pc.toNat / 128) ((List.range 128).map fun j => s.devRd (at_ + j), false) }))))) ∧
  (∀ (s : State) (die line rd : Nat),
    let room := l2Lines - 16384 * (s.ops.filter fun o => !o.done && o.core.die == die && (match o.kind with | .binr _ _ _ _ (some _) => true | _ => false)).length
    (∀ e, tget s.l2 (die, line) = some e → (∀ u ∈ e.pend, u.drop = false) → s.viaL2 die line rd = ({ s with l2 := tset s.l2 (die, line) { e with rrpv := 0 } }, e)) ∧
    ((tget s.l2 (die, line) = none ∨ ∃ e, tget s.l2 (die, line) = some e ∧ ∃ u ∈ e.pend, u.drop = true) → ∃ e : L2Line, (s.viaL2 die line rd).2 = e ∧ e.rrpv = rd ∧ e.pend = [] ∧ (∀ j, j < 128 → sget 0 e.bytes j = s.devRd (128 * line + j)) ∧
      tget (s.viaL2 die line rd).1.l2 (die, line) = some e ∧
      ((s.l2.filter fun x => x.1.1 == die).length < room → (s.viaL2 die line rd).1 = { s with l2 := tset s.l2 (die, line) e })) ∧
    (s.lineBad die line = true ↔ line ∈ s.badLines ∧ ∀ e, tget s.l2 (die, line) = some e → ∃ u ∈ e.pend, u.drop = true)) ∧
  (∀ (h : Hdr) (op : BitVec 10) (s : State) (c : Ctx), s.issuer = some c →
    exec (.unassignedOpcode h op) s = .next (s.takeTrap c.id (c.exact .illegal 2 .none c.mask 0))) ∧
  (∀ (s : State) (id : WaveId) (w : Wave), s.wave id = some w →
    let ok := w.resident = true ∧ w.overdue = none ∧ (∃ t, w.readySince = some t ∧ t + 32 ≤ s.clk w.core.die) ∧
      ∀ x ∈ s.wavesOn w.core, x.2.slot / 24 = w.slot / 24 → s.waveCls id ≤ s.waveCls x.1
    (ok → exec (.overdue id) s = .next (s.setWave id { w with overdue := some (s.clk w.core.die) })) ∧ (¬ok → exec (.overdue id) s = .next s)) ∧
  (∀ (s : State) (p : PathId) (w : Wave), s.wave p.wave = some w →
    ((w.runs = false ∨ w.hand.isSome = true ∨ w.nextPath ≠ none) → exec (.openFaultTrap p) s = .next s) ∧
    (w.runs = true → w.hand = none → w.nextPath = none →
      ((w.split p.split).st = .faulted → ∃ t, exec (.openFaultTrap p) s = .next (s.takeTrap p.wave t) ∧ t.cause = .xlate ∧
        t.trappc = (w.split p.split).p1.pc ∧ t.record.mask = (w.split p.split).p1.mask ∧ t.record.addr = (w.split p.split).faultAddr ∧
        t.record.type = 0x06 ∧ t.record.field = .a) ∧
      (∀ m a, (w.split p.split).st = .running → ((w.split p.split).path p.second).wait = some (.openFault m a) →
        ∃ t, exec (.openFaultTrap p) s = .next (s.takeTrap p.wave t) ∧ t.cause = .xlate ∧ t.trappc = ((w.split p.split).path p.second).pc ∧
          t.record.mask = m ∧ t.record.addr = a)))

/-- R121, R136, R146, R147, R282: a line that an OPEN has charged and no engine owns comes from its home, or is refused with DIE_OFFLINE or DATA_ERROR; a recall takes a line from a core; a shootdown of
pages leaves no copy of a line of them in any core or L2, and no translation of them, writes back what D0 holds of them, and its completion is reported; the host's translation of
a page is cached on its die, and its refusal becomes a page request, which waits while 512 are outstanding at the endpoint, and whose refusal faults the lanes of an OPEN that
wait for it, gives NOT_TRANSLATED at a REOPEN, and is told to the engine or the copy that stands at the page, and to the records of scope wave that a COMMIT waits for at its issue. A register line that is away is read from the wave's image, but for
what has been written to it meanwhile.
That a line which a REOPEN fetches takes the reuse distance of the first listed lane that waits for it is the model's choice (log entry 78). That a resumed
wave's windows wait for the host's replies is its reading of R141 (log entry 24), and so is that an OPEN waits while its core has no request for the line (log
entry 88). That what has been written to a register line while it was away stands over it as it returns (log entry 61), and that the register cache then makes
room (log entry 87), are its choices. -/
def Obligations.TranslationEvents : Prop :=
  (∀ (s : State) (o : Op) (x : OpenOp) (w : Wave) (line : Nat) (victim : Option Nat), s.op o.id = some o → o.kind = .open x → s.wave o.wave = some w →
    ((line ∉ x.need ∨ (tget s.owned line).isSome = true ∨ w.resident = false ∨ s.hasEntry o (some line) = false) → exec (.openFetchReturn o.id line victim) s = .next s) ∧
    (line ∈ x.need → tget s.owned line = none → w.resident = true → s.hasEntry o (some line) = true →
      (s.lineUp line = false → exec (.openFetchReturn o.id line victim) s = .next ((s.refuse o.id line cOFFLINE).openSettle o.wave)) ∧
      (s.lineUp line = true → s.lineBad w.core.die line = true → exec (.openFetchReturn o.id line victim) s = .next ((s.refuse o.id line cDATA).openSettle o.wave)) ∧
      (s.lineUp line = true → s.lineBad w.core.die line = false → x.reopen = false → exec (.openFetchReturn o.id line victim) s =
        .next (((s.fill w.core line x.rd.toNat victim).obtain o.wave o.id x line).openSettle o.wave)) ∧
      (s.lineUp line = true → s.lineBad w.core.die line = false → x.reopen = true → exec (.openFetchReturn o.id line victim) s =
        .next (((s.fill w.core line (((x.lines.find? fun y => y.2.2 == line).map fun y => (w.bind y.1 x.win.toNat).rd).getD 2).toNat victim).obtain
          o.wave o.id x line).openSettle o.wave)))) ∧
  (∀ (s : State) (cid : CoreId) (line : Nat),
    (tget s.cores cid = none → exec (.lineRecall cid line) s = .next s) ∧
    (tget s.cores cid ≠ none → exec (.lineRecall cid line) s = .next (s.recall cid line))) ∧
  (∀ (s : State) (space va size count : Nat),
    (s.ops = [] → (∀ x ∈ s.waves, x.2.rebinding = false) → (∀ k ∈ s.cores, (k.2.store.map Prod.fst).Nodup) → (s.cores.map Prod.fst).Nodup → ∃ t : State,
      exec (.atsInvalidation space va size count) s = .next t ∧ t.spaces = s.spaces ∧ t.atsDone = s.atsDone ++ [(space, va, size, count)] ∧
      ((∀ x ∈ s.d0held, s.onRange space va (size * count) x.1 = false) → t.mem = s.mem) ∧
      t.d0held = s.d0held.filter (fun x => !s.onRange space va (size * count) x.1) ∧
      (∀ x ∈ t.l2, s.onRange space va (size * count) x.1.2 = false) ∧
      (∀ cid line, s.onRange space va (size * count) line = true → tget (t.core cid).store line = none) ∧
      (∀ cid line, s.onRange space va (size * count) line = false → (s.core cid).updq = [] → tget (t.core cid).store line = tget (s.core cid).store line) ∧
      (∀ d page, va ≤ 4096 * page → 4096 * page < va + size * count → ∀ e ∈ (t.die d).ats, e.1 ≠ (space, page))) ∧
    exec (.atsInvalidation space va size count) s =
      .next { s.shootdown space va (size * count) id with atsDone := (s.shootdown space va (size * count) id).atsDone ++ [(space, va, size, count)] }) ∧
  (∀ (s : State) (die space page pa : Nat) (q : Perms),
    exec (.atsTranslationReply die space page pa (some q)) s =
      .next (((({ s with priWait := s.priWait.filter fun x => x ≠ (die, space, page) } : State).modDie die fun d =>
        { d with ats := tset d.ats (space, page) (some (pa, q)) }).rebindAll).lookAgain die) ∧
    let t := s.modDie die fun d => { d with ats := tset d.ats (space, page) none }
    let r := exec (.atsTranslationReply die space page pa none) s
    (((space, page) ∈ (s.die die).pri ∨ (die, space, page) ∈ s.priWait) → die < 4 → s.dies.length = 4 → r = .next t.rebindAll) ∧
    ((space, page) ∉ (s.die die).pri → (die, space, page) ∉ s.priWait → die < 4 → s.dies.length = 4 →
      (512 ≤ (s.dies.map fun d => d.pri.length).sum → r = .next ({ t with priWait := s.priWait ++ [(die, space, page)] } : State).rebindAll) ∧
      ((s.dies.map fun d => d.pri.length).sum < 512 → s.priWait = [] → r = .next (t.modDie die fun d => { d with pri := addNew d.pri (space, page) }).rebindAll)) ∧
    (∀ u : State, (∀ x ∈ u.waves, x.2.resident = false ∨ x.2.rebinding = false) → u.rebindAll = u)) ∧
  (∀ (s : State) (die space page : Nat) (ok : Bool),
    let t := (s.modDie die fun d => { d with ats := tdel d.ats (space, page), pri := d.pri.filter fun x => x ≠ (space, page) }).priNext
    let u := ({ t with copies := s.copies.map fun k => k.refuse die space page } : State).denyReds die space page
    ((space, page) ∉ (s.die die).pri → exec (.priResponse die space page ok) s = .next s) ∧
    ((space, page) ∈ (s.die die).pri → ok = true → exec (.priResponse die space page ok) s = .next t) ∧
    ((space, page) ∈ (s.die die).pri → (∀ o ∈ s.ops, o.done = true ∨ o.core.die ≠ die ∨ o.space ≠ space) →
      exec (.priResponse die space page false) s = .next u) ∧
    (∀ o, (space, page) ∈ (s.die die).pri → s.ops = [o] → o.openOf = none → s.onPage o page = true → o.done = false → o.core.die = die → o.space = space →
      exec (.priResponse die space page false) s = .next (u.modOp o.id fun o => { o with denied := addNew o.denied page })) ∧
    (∀ o x, (space, page) ∈ (s.die die).pri → s.ops = [o] → o.kind = .open x → o.done = false → o.core.die = die → o.space = space →
      (∃ y ∈ x.todo, y.2.toNat / 4096 = page) → exec (.priResponse die space page false) s = .next ((u.modOpen o.id fun x =>
        { x with todo := x.todo.filter fun y => y.2.toNat / 4096 ≠ page
                 faulted := if x.reopen then x.faulted else x.faulted ++ x.todo.filter fun y => y.2.toNat / 4096 = page
                 codes := if x.reopen then addNew x.codes 0x48 else x.codes }).openSettle o.wave))) ∧
  (∀ (s : State) (id : WaveId) (w : Wave) (line : Nat), s.wave id = some w →
    ((w.resident = false ∨ w.evicted = true ∨ line ∉ w.away) → exec (.registerLineReturn id line) s = .next s) ∧
    (w.resident = true → w.evicted = false → line ∈ w.away → ∃ x, exec (.registerLineReturn id line) s = .next ((s.setWave id x).makeRoom w.core) ∧
      line ∉ x.away ∧
      (∀ k, line < 4 → k < 32 → (.s (32 * line + k), 0) ∈ w.newer → x.sreg (32 * line + k) = w.sreg (32 * line + k)) ∧
      (∀ k pa q, line < 4 → k < 32 → (.s (32 * line + k), 0) ∉ w.newer → 32 * line + k < w.salloc → s.walk (s.spaceOf id.grid) (s.imageVa id w (0x1000 + 4 * (32 * line + k))) = some (pa, q) →
        x.sreg (32 * line + k) = BitVec.ofNat 32 (s.devNat pa 4)) ∧
      (∀ r, r / 32 ≠ line → x.sreg r = w.sreg r)))

namespace Sys2Proof.Claims

open Sys2Proof.Machine

/-- The call that an event serves: its frame's sender, and the code of the call (18 R280, R283). -/
def call : Instr → Option (Caller × Nat)
  | .sessionClose c => some (c, 0x02)
  | .launchCall c => some (c, 0x03)
  | .map c _ _ _ _ _ => some (c, 0x04)
  | .unmap c _ _ _ => some (c, 0x05)
  | .migrate c _ _ _ => some (c, 0x06)
  | .memcpy c _ _ _ => some (c, 0x07)
  | .setSlice c _ => some (c, 0x08)
  | .debugHalt c _ => some (c, 0x10)
  | .debugResume c _ _ => some (c, 0x11)
  | .contextRead c _ _ _ _ _ => some (c, 0x12)
  | .waveResume c _ _ _ => some (c, 0x13)
  | .waveEnd c _ => some (c, 0x14)
  | .coreRetire c _ => some (c, 0x20)
  | .coreSpare c _ => some (c, 0x21)
  | .hbmSpare c _ _ _ => some (c, 0x22)
  | .laneRepair c _ _ _ => some (c, 0x23)
  | .dieReset c _ => some (c, 0x24)
  | .dieAdmit c _ => some (c, 0x25)
  | .ceSet c _ _ _ _ => some (c, 0x26)
  | .power c _ _ => some (c, 0x27)
  | .fwUpdate c _ _ _ => some (c, 0x28)
  | .attest c _ _ => some (c, 0x29)
  | .identity c => some (c, 0x2A)
  | .dataFrame a p h _ bs => some (.peer a p h bs, 0x40)
  | _ => none

/-- The sender's frame is the next of its session `x`, of this code, with a header that is well formed, and is not yet served: `t` is the state in
which the session has taken its sequence number, and `r` the reply that its call fills in. -/
def Call (s : State) (c : Caller) (code : Nat) (t : State) (x : Session) (r : Reply) : Prop :=
  ∃ h : FrameHdr, s.hdrOf c = some h ∧ s.wasServed c = false ∧ hdrRefused c h = none ∧ h.code.toNat = code ∧ (s.fwWaits = false ∨ code = 0x24) ∧
    s.rewritten c = false ∧
    tget s.sessions h.session.toNat = some x ∧ (h.session = 0 ↔ 0x20 ≤ code ∧ code < 0x40) ∧ h.seq = x.fseq + 1 ∧
    t = { s with sessions := tset s.sessions h.session.toNat { x with fseq := h.seq, begun := true, last := none } } ∧
    r = { session := h.session.toNat, caller := some c, tag := h.tag, seq := h.seq, status := 0, result := [] }

/-- The event leaves the state `u`, with the sender's frame served. -/
def Serves (i : Instr) (s : State) (c : Caller) (u : State) : Prop := exec i s = .next (s.afterServe c (some u))

/-- The call is answered, from the state `u`. -/
def Answers (i : Instr) (s : State) (c : Caller) (u : State) (r : Reply) (st : Word) (res : List Byte) : Prop :=
  Serves i s c (u.answer { r with status := st, result := res })

/-- The call is refused with BAD_FRAME, at an offset that the spec leaves open where it gives no layout of the payload. -/
def Bad (i : Instr) (s : State) (c : Caller) (t : State) (r : Reply) : Prop :=
  ∃ off, off < 4096 ∧ Answers i s c { t with fresh := t.fresh + 1 } r (status 0x70 off) []

end Sys2Proof.Claims

/-! Reliability. -/

/-- R24, R203, R265 to R267, R271 to R273: counting windows, corrected errors and their threshold, uncorrectable errors by structure, links and temperature. A counter at its
threshold sends one record when it passes it, and no more until it is armed again; it stops at 0xFFFF. An uncorrectable error marks what it stands in: a register line, a pantry
word, a delta of a buffer or of a COMMIT in flight, a reduction record, the latch of an operation that has begun, a tile's cell; a line store's entry, every copy of a line whose directory entry is lost, and the lines that a lost
translation tracked, are recalled; a code line in the fetch buffers traps the path that meets it; a clean line of an L2 is fetched again, and of a dirty one every later read finds the error. That a retraining puts a failed lane back in use is the model's choice (log entry 41).
That an uncorrectable error of every structure sends SRAM_UE (log entry 45), and each report above 105 degrees THERMAL (log entry 46), is the model's reading;
that a lost translation recalls the lines of one page of 4 KiB at every core of every die is its choice (log entry 82). -/
def Obligations.ReliabilityEvents : Prop :=
  (∀ (s : State) (cid : CoreId) (k : Nat), k < (s.core cid).exc.length →
    let x := (s.core cid).exc.getD k {}
    ((x.window = 0 ∨ s.clk cid.die < x.started + x.window) → exec (.excWindowEnd cid k) s = .next s) ∧
    (x.window ≠ 0 → x.started + x.window ≤ s.clk cid.die → ∃ t, exec (.excWindowEnd cid k) s = .next t ∧ t = { s with cores := t.cores } ∧
      (t.core cid).exc.getD k {} = { x with count := 0, armed := true, started := x.started + x.window } ∧
      (∀ n, n ≠ k → (t.core cid).exc.getD n {} = (s.core cid).exc.getD n {}) ∧ (∀ j, j ≠ cid → t.core j = s.core j))) ∧
  (∀ (s : State) (d n : Nat), d < s.dies.length →
    let x := (s.die d).counter n
    ((x.window = 0 ∨ s.clk d < x.started + x.window) → exec (.ceWindowEnd d n) s = .next s) ∧
    (x.window ≠ 0 → x.started + x.window ≤ s.clk d → ∃ t, exec (.ceWindowEnd d n) s = .next t ∧ t = { s with dies := t.dies } ∧
      (t.die d).counter n = { x with count := 0, armed := true, started := x.started + x.window })) ∧
  (∀ (s : State) (d n : Nat), d < s.dies.length → d < 4 → ceCounterOk d n = true →
    let x := (s.die d).counter n
    let fires := x.armed = true ∧ x.count = x.threshold ∧ x.threshold < 0xFFFF
    ∃ t, exec (.correctedError d n) s = .next t ∧ ((t.die d).counter n).count = min (x.count + 1) 0xFFFF ∧
      ((t.die d).counter n).threshold = x.threshold ∧
      (¬fires → t.records = s.records ∧ ((t.die d).counter n).armed = x.armed) ∧
      (fires → ((t.die d).counter n).armed = false ∧ ∃ r, t.records = s.records ++ [(0, r)] ∧ r.type = 0x26 ∧ r.die = d)) ∧
  (∀ (s : State) (id : WaveId) (w : Wave) (line va : Nat) (written : Bool), s.wave id = some w → ∃ (t u : State) (n m : Nat) (r q : FaultRecord),
    exec (.sramUe (.regs id line written)) s = .next t ∧ t.records = s.records ++ [(n, r)] ∧ r.type = 0x24 ∧ r.wave = id.wave ∧ r.detail.extractLsb' 0 32 = 1 ∧
    t.wave id = some (if written then { w with badRegs := addNew w.badRegs line } else w) ∧
    exec (.sramUe (.waveBuffer id va)) s = .next u ∧ u.records = s.records ++ [(m, q)] ∧ q.type = 0x24 ∧ q.detail.extractLsb' 0 32 = 4 ∧
    u.wave id = some { w with wbuf := w.wbuf.map fun d => if d.va = va then { d with bad := true } else d } ∧
    ∀ (o : Op) (level : Nat) (strict : Option (BitVec 7)) (st : BitVec 7) (snap : List Delta), o ∈ s.ops → o.wave = id → o.kind = .commit level strict st snap →
      ({ o with kind := .commit level strict st (snap.map fun d => if d.va = va then { d with bad := true } else d) } : Op) ∈ u.ops) ∧
  (∀ (s : State) (g b n : Nat) (x : Block) (r : RedRec), s.block g b = some x → x.reds[n]? = some r → ∃ (t : State) (m : Nat) (q : FaultRecord),
    exec (.sramUe (.reduction g b n)) s = .next t ∧ t.records = s.records ++ [(m, q)] ∧ q.type = 0x24 ∧ q.detail.extractLsb' 0 32 = 4 ∧
    t.block g b = some { x with reds := lmod x.reds n fun r => { r with bad := true } }) ∧
  (∀ (s : State) (die h : Nat) (m : MxOp) (rest : List MxOp) (o : Op), (s.hearth (die, h)).queue = m :: rest → s.op m.id = some o →
    (∀ x ∈ rest, x.id ≠ m.id) → ∃ (t : State) (n : Nat) (q : FaultRecord), exec (.sramUe (.latch die h)) s = .next t ∧ t.records = s.records ++ [(n, q)] ∧
      q.type = 0x24 ∧ q.detail.extractLsb' 0 32 = 6 ∧ (t.hearth (die, h)).queue = { m with spoiled := m.spoiled || m.begun } :: rest) ∧
  (∀ (s : State) (g b va : Nat) (x : Block), s.block g b = some x → ∃ (t : State) (n : Nat) (r : FaultRecord),
    exec (.sramUe (.blockBuffer g b va)) s = .next t ∧ t.records = s.records ++ [(n, r)] ∧ r.type = 0x24 ∧ r.detail.extractLsb' 0 32 = 4 ∧
    r.addr = BitVec.ofNat 64 (128 * va) ∧ t.block g b = some { x with buf := x.buf.map fun d => if d.va = va then { d with bad := true } else d }) ∧
  (∀ (s : State) (g k va : Nat) (x : Group), s.group g k = some x → ∃ (t : State) (n : Nat) (r : FaultRecord),
    exec (.sramUe (.clusterBuffer g k va)) s = .next t ∧ t.records = s.records ++ [(n, r)] ∧ r.type = 0x24 ∧ r.detail.extractLsb' 0 32 = 4 ∧
    r.addr = BitVec.ofNat 64 (128 * va) ∧ t.group g k = some { x with buf := x.buf.map fun d => if d.va = va then { d with bad := true } else d }) ∧
  (∀ (s : State) (cid : CoreId) (space line : Nat),
    (tget (s.core cid).fetch (space, line) = none → exec (.sramUe (.fetch cid space line)) s = .next s) ∧
    (∀ bs bad, tget (s.core cid).fetch (space, line) = some (bs, bad) → ∃ (t : State) (r : FaultRecord),
      exec (.sramUe (.fetch cid space line)) s = .next t ∧ t.records = s.records ++ [(0, r)] ∧ r.type = 0x24 ∧ r.detail.extractLsb' 0 32 = 5 ∧
      tget (t.core cid).fetch (space, line) = some (bs, true) ∧ ∀ k, k ≠ (space, line) → tget (t.core cid).fetch k = tget (s.core cid).fetch k)) ∧
  (∀ (s : State) (die line : Nat), ∃ (t : State) (r : FaultRecord), exec (.sramUe (.directory die line)) s = .next t ∧
    t.records = s.records ++ [(0, r)] ∧ r.type = 0x24 ∧ r.die = die ∧ r.detail.extractLsb' 0 32 = 8 ∧ r.addr = BitVec.ofNat 64 (128 * line) ∧
    t.cores = (s.recallAll line).cores ∧ t.waves = (s.recallAll line).waves ∧ ∀ x ∈ t.l2, x.1.2 ≠ line) ∧
  (∀ (s : State) (die space page : Nat), s.ops = [] → (∀ x ∈ s.waves, x.2.rebinding = false) → (∀ k ∈ s.cores, (k.2.store.map Prod.fst).Nodup) → (s.cores.map Prod.fst).Nodup → die < s.dies.length →
    ((s.die die).ats.map Prod.fst).Nodup → ∃ (t : State) (q : FaultRecord), exec (.sramUe (.translation die space page)) s = .next t ∧
      t.records = s.records ++ [(0, q)] ∧ q.type = 0x24 ∧ q.detail.extractLsb' 0 32 = 8 ∧ tget (t.die die).ats (space, page) = none ∧
      ∀ cid line, s.onRange space (4096 * page) 4096 line = true → tget (t.core cid).store line = none) ∧
  (∀ (s : State) (g b k off : Nat) (x : Block), s.block g b = some x → ∃ (t : State) (n : Nat) (r : FaultRecord),
    exec (.sramUe (.pantry g b k off)) s = .next t ∧ t.records = s.records ++ [(n, r)] ∧ r.type = 0x24 ∧ r.detail.extractLsb' 0 32 = 2 ∧
    t.block g b = some { x with shares := lmod x.shares k fun y => { y with bad := addNew y.bad off } }) ∧
  (∀ (s : State) (cid : CoreId) (line : Nat), (tget (s.core cid).store line).isSome = true → ∃ (t : State) (r : FaultRecord),
    exec (.sramUe (.lineStore cid line)) s = .next t ∧ t.records = s.records ++ [(0, r)] ∧ r.type = 0x24 ∧ r.detail.extractLsb' 0 32 = 3 ∧
    t.waves = (s.recall cid line).waves ∧ t.cores = (s.recall cid line).cores) ∧
  (∀ (s : State) (d h k cell : Nat), k < (s.hearth (d, h)).tiles.length → ∃ (t : State) (n : Nat) (r : FaultRecord),
    exec (.sramUe (.tile d h k cell)) s = .next t ∧ t.records = s.records ++ [(n, r)] ∧ r.type = 0x24 ∧ r.detail.extractLsb' 0 32 = 6 ∧
    (t.hearth (d, h)).tile k = { (s.hearth (d, h)).tile k with bad := addNew ((s.hearth (d, h)).tile k).bad cell }) ∧
  (∀ (s : State) (d line lane other : Nat) (hbm dirty : Bool) (q : BitVec 16), d < s.dies.length → ∃ (t u v : State) (r l x : FaultRecord),
    exec (.memoryUe d line hbm dirty) s = .next t ∧ t.records = s.records ++ [(0, r)] ∧ r.type = 0x25 ∧ r.addr = BitVec.ofNat 64 (128 * line) ∧
    t.badLines = (if hbm = true ∨ dirty = true then addNew s.badLines line else s.badLines) ∧
    t.l2 = (if hbm = true then s.l2 else s.l2.filter fun x => if dirty = true then x.1.2 ≠ line else x.1 ≠ (d, line)) ∧
    exec (.link d other lane false) s = .next u ∧ u.records = s.records ++ [(0, l)] ∧ l.type = 0x27 ∧ (other, lane) ∈ (u.die d).failedLanes ∧
    exec (.link d other lane true) s = .next v ∧ v.records = s.records ++ [(0, x)] ∧ x.type = 0x27 ∧ (other, lane) ∉ (v.die d).failedLanes ∧
    (q.toNat ≤ 4 * 105 → exec (.thermal d q) s = .next (s.modDie d fun k => { k with temp := q })) ∧
    (4 * 105 < q.toNat → ∃ (y : State) (z : FaultRecord), exec (.thermal d q) s = .next y ∧ y.records = s.records ++ [(0, z)] ∧ z.type = 0x28 ∧
      (y.die d).temp = q))

/-! The host. -/

/-- R6, R168, R277, R279, R283: power-on reset leaves the machine of `State.reset`, but for host memory, the fused minimum versions of the dies and the dies that fail, with a DIE_STATE record of each die. A write to the
letterbox lands after the host's own writes, and takes the frame of every free slot whose byte 7 it writes, refusing one whose header is malformed; of a frame in service each
byte written anew is the old or the new one; a read gives 0xFF. A frame to a peer whose reply has not come is sent again; its reply ends it, and the copy whose bytes were in it
goes on, or stops where the peer could not write them. Held replies go out one by one in their order while the ring has space.
That device memory then reads 0 (log entry 5), the letterbox's bytes (log entry 6) and the dies' other starting values (log entry 7) are the model's choices;
the bytes of a frame written again are its reading (log entry 36). -/
def Obligations.HostEvents : Prop :=
  (∀ (s : State) (failed : BitVec 4), ∃ t, exec (.powerOnReset failed) s = .next t ∧
    t = { State.reset with inputs := s.inputs, auto := s.auto, fresh := s.fresh, mem := t.mem, dies := t.dies, records := t.records } ∧
    (∀ a, t.rd a = if isHost a then s.rd a else 0) ∧ t.records.map (fun r => (r.1, r.2.type, r.2.die)) = [(0, 0x2B, 0), (0, 0x2B, 1), (0, 0x2B, 2), (0, 0x2B, 3)] ∧
    (∀ d, d < 4 → t.die d = { State.reset.die d with online := !failed.getLsbD d, minimum := (s.die d).minimum })) ∧
  (∀ (s : State) (off : Nat) (bytes : List Byte) (ws : List (Nat × Byte)),
    (65536 < off + bytes.length → exec (.letterboxWrite off bytes ws) s = .next s) ∧
    (off + bytes.length ≤ 65536 → ∃ t, exec (.letterboxWrite off bytes ws) s = .next t ∧
      (∀ k, k < bytes.length → sget 0 t.letterbox (off + k) = bytes.getD k 0) ∧
      (∀ k, (k < off ∨ off + bytes.length ≤ k) → sget 0 t.letterbox k = sget 0 s.letterbox k) ∧
      (∀ n f, s.frameAt n = some f → ∃ g, t.frameAt n = some g ∧ g.served = f.served ∧
        (∀ k, k < 4096 → sget 0 g.bytes k = sget 0 f.bytes k ∨
          (off ≤ 4096 * n + k ∧ 4096 * n + k < off + bytes.length ∧ sget 0 g.bytes k = bytes.getD (4096 * n + k - off) 0)) ∧
        (∀ k, k < bytes.length → (off + k) / 4096 = n → g.rewritten = true)) ∧
      (∀ n, s.frameAt n = none → off ≤ 4096 * n + 7 → 4096 * n + 7 < off + bytes.length →
        let h := hdrOfBytes ((List.range 32).map fun k => sget 0 t.letterbox (4096 * n + k))
        (hdrBad h = none → h.code ≠ 0x40 → ∃ g, t.frameAt n = some g ∧ g.served = false ∧ g.rewritten = false) ∧
        ((hdrBad h ≠ none ∨ h.code = 0x40) → ∀ g, t.frameAt n = some g → g.served = true)) ∧
      (∀ n g, s.frameAt n = none → t.frameAt n = some g → off ≤ 4096 * n + 7 ∧ 4096 * n + 7 < off + bytes.length ∧
        ∀ k, k < 4096 → sget 0 g.bytes k = sget 0 t.letterbox (4096 * n + k))) ∧
    (off + bytes.length ≤ 65536 → exec (.letterboxWrite off bytes ws) s = exec (.letterboxWrite off bytes [])
      (ws.foldl (fun s w => if w.1 < hostBase then s.wrByte (hostBase + w.1) w.2 else s) s))) ∧
  (∀ (s : State) (n : Nat), s.frameAt n = none →
    let f : Frame := { slot := n, bytes := (s.letterbox.filter fun c => c.1 / 4096 == n).map fun c => (c.1 % 4096, c.2) }
    let h := hdrOfBytes ((List.range 32).map fun k => sget 0 s.letterbox (4096 * n + k))
    let t : State := { s with frames := s.frames ++ [f] }
    (hdrBad h = none → h.code ≠ 0x40 → s.takeFrame n = t) ∧
    (h.code = 0x40 → s.takeFrame n = t.afterServe (.slot n) (some (t.refuseFrame (.slot n) h 0x70 0))) ∧
    (∀ off, h.code ≠ 0x40 → hdrBad h = some off → s.takeFrame n = t.afterServe (.slot n) (some (t.refuseFrame (.slot n) h 0x70 off)))) ∧
  (∀ (s : State) (off len : Nat),
    (off + len ≤ 65536 → exec (.letterboxRead off len) s = .next { s with lastRead := List.replicate len 0xFF }) ∧
    (65536 < off + len → exec (.letterboxRead off len) s = .next s)) ∧
  (∀ (s : State) (n : Nat) (st : Word), 
    let again : PeerFrame → PeerFrame := fun f => if f.id = n ∧ f.awaits = true then { f with resent := f.resent + 1 } else f
    exec (.frameResend n) s = .next { s with peerOut := s.peerOut.map again } ∧
    ((∀ f ∈ s.peerOut, f.id ≠ n ∨ f.awaits = false) → exec (.peerReplyFrame n st) s = .next s) ∧
    ((∃ f ∈ s.peerOut, f.id = n ∧ f.awaits = true) → (∀ k ∈ s.copies, ∀ len, k.frame ≠ some (n, len)) →
      exec (.peerReplyFrame n st) s = .next { s with peerOut := s.peerOut.filter fun f => f.id ≠ n }) ∧
    (∀ k len, (∃ f ∈ s.peerOut, f.id = n ∧ f.awaits = true) → s.copies = [k] → k.frame = some (n, len) →
      (st.extractLsb' 0 8 = 0 → exec (.peerReplyFrame n st) s = .next { s with
        peerOut := s.peerOut.filter fun f => f.id ≠ n, copies := [{ k with done := k.done + len, frame := none }] }) ∧
      (st.extractLsb' 0 8 ≠ 0 → exec (.peerReplyFrame n st) s = .next (({ s with peerOut := s.peerOut.filter fun f => f.id ≠ n } : State).endCopy k
        (some ((st.extractLsb' 0 8).toNat, k.done, endAddr k.dst + k.done)))))) ∧
  (∀ (s : State) (n : Nat) (x : Session), tget s.sessions n = some x → x.closing = none →
    ((∀ r ∈ s.heldReplies, r.session ≠ n) → exec (.replyRingSpace n) s = .next s) ∧
    (∀ rr er, x.rings = some (rr, er) → s.ringFull rr = true → exec (.replyRingSpace n) s = .next s) ∧
    (∀ rr er r, x.rings = some (rr, er) → s.ringFull rr = false → s.heldReplies = [r] → r.session = n → (∀ a p h b, r.caller ≠ some (.peer a p h b)) →
      ∃ (t : State) (y : Session) (q : Ring), exec (.replyRingSpace n) s = .next t ∧ t.heldReplies = [] ∧ tget t.sessions n = some y ∧
        y.rings = some (q, er) ∧ q.prod = rr.prod + 1 ∧ t.msix = s.msix ++ [rr.spec.vector])) ∧
  (∀ (s : State) (n : Nat) (x : Session) (rr er : Ring) (r : Reply) (rest : List Reply), tget s.sessions n = some x → x.rings = some (rr, er) →
    s.ringFull rr = false → s.heldReplies = r :: rest → r.session = n → (∀ q ∈ rest, q.session = n) →
    let t := ({ s with heldReplies := [] } : State).deliver r
    t.heldReplies = [] ∧ exec (.replyRingSpace n) s = exec (.replyRingSpace n) { t with heldReplies := rest })

/-- R278, R280, R283, R287: what serving a frame answers before its call is looked at. A frame that has been served is not served again; one whose header is malformed, or that brings data through the letterbox, draws BAD_FRAME with the byte; one of an
unknown session NO_SESSION; one of a session that its call is not for BAD_FRAME; a repeat of the latest number of its session draws the same reply again, once there is one; and
one that is neither the latest nor the next BAD_FRAME with the number's place, unless a frame before it is still to come, for which it waits. Calls wait for a new firmware image
to start, but for DIE_RESET. A frame whose slot was written again may be refused (log entry 36).
The places 0 and 4 of BAD_FRAME for a call in a session that it is not for are the model's reading (log entry 37). -/
def Obligations.CallFraming : Prop :=
  ∀ (i : Instr) (c : Caller) (code : Nat) (s : State) (h : FrameHdr), Claims.call i = some (c, code) → s.hdrOf c = some h →
    let bad := match c with | .slot _ => if h.code = 0x40 then some 0 else hdrBad h | .peer .. => hdrBad h
    (s.wasServed c = true → exec i s = .next s) ∧
    (s.wasServed c = false →
      (∀ off, bad = some off → Claims.Serves i s c (s.refuseFrame c h 0x70 off)) ∧
      (bad = none → (h.code.toNat ≠ code ∨ (s.fwWaits = true ∧ code ≠ 0x24)) → exec i s = .next s) ∧
      (bad = none → h.code.toNat = code → (s.fwWaits = false ∨ code = 0x24) → s.mixRefused c h = true → ∃ off, off < 4096 ∧
        Claims.Serves i s c (({ s with fresh := s.fresh + 1 } : State).refuseFrame c h 0x70 off)) ∧
      (bad = none → h.code.toNat = code → (s.fwWaits = false ∨ code = 0x24) → s.rewritten c = false →
        (tget s.sessions h.session.toNat = none → Claims.Serves i s c (s.refuseFrame c h 0x71 0)) ∧
        (∀ x, tget s.sessions h.session.toNat = some x → ¬(h.session = 0 ↔ 0x20 ≤ code ∧ code < 0x40) →
          Claims.Serves i s c (s.refuseFrame c h 0x70 (if h.session = 0 then 0 else 4))) ∧
        (∀ x, tget s.sessions h.session.toNat = some x → (h.session = 0 ↔ 0x20 ≤ code ∧ code < 0x40) →
          (h.seq = x.fseq → x.begun = true → (∀ r, x.last = some r → Claims.Serves i s c (s.deliver { r with caller := some c })) ∧
            (x.last = none → exec i s = .next s)) ∧
          ((h.seq ≠ x.fseq ∨ x.begun = false) → h.seq ≠ x.fseq + 1 →
            (s.earlierFrame h.session.toNat x.fseq h.seq = false → Claims.Serves i s c (s.refuseFrame c h 0x70 0x10)) ∧
            (s.earlierFrame h.session.toNat x.fseq h.seq = true → exec i s = .next s)))))

/-- R94, R97, R107, R234, R278 to R280, R386: the calls of a session. SESSION_OPEN gives a new session with its rings, space and class, and answers a repeat with the first reply; SESSION_CLOSE answers
once the launches have retired; a launch call queues the record of its payload; SET_SLICE sets the slice, from 100 µs to 1 s. MAP translates every address of its range, and
UNMAP none of it and every other as before; MIGRATE moves a page. A MEMCPY is taken into service by the copy engine, which owns its destination lines until nothing more is written to them, and each of its pieces is copied, with the rest of its source line read in the same step (R234), or sent to a peer in a DATA
frame, or stops it with its code, its record and its stop offset, or waits for the host; the reply comes at its end. A DATA frame writes its bytes. That the destination of a copy
needs a translation alone, with no write permission, is the model's reading (log entry 72).
The result bytes of SESSION_OPEN and MEMCPY are the model's choice (log entry 38), and the limits of a slice in clocks its reading (log entry 42). So are that
MAP answers OK for any physical base (log entry 64), that MIGRATE takes the free page its operand names (log entry 39) and that a second SESSION_CLOSE waits
(log entry 36). -/
def Obligations.SessionCalls : Prop :=
  (∀ (s : State) (c : Caller) (rr er : RingSpec) (space : Nat) (cls : BitVec 2) (h : FrameHdr), s.hdrOf c = some h → s.wasServed c = false →
    hdrRefused c h = none → h.code = 1 → s.fwWaits = false → s.rewritten c = false → h.session = 0 → h.seq = 0 →
    (∀ x, s.opens.find? (fun x => x.1 == callerSender c && x.2.1 == h.tag) = some x →
      Claims.Serves (.sessionOpen c rr er space cls) s c (s.deliver { x.2.2 with caller := some c })) ∧
    (s.opens.find? (fun x => x.1 == callerSender c && x.2.1 == h.tag) = none → (callerSender c ≠ none ∨ (ringSpecOk rr = true ∧ ringSpecOk er = true)) →
      ∃ (t : State) (x : Session), Claims.Serves (.sessionOpen c rr er space cls) s c (t.setOpen c h.tag
          { session := s.nextSession, caller := some c, tag := h.tag, status := status 0 0, result := leBytes 4 s.nextSession }) ∧
        tget t.sessions s.nextSession = some x ∧ x.space = space ∧ x.cls = cls.toNat ∧ x.seq = 0 ∧ x.fseq = 0 ∧ x.launches = 0 ∧ x.slice = 4000000 ∧
        (callerSender c = none → x.rings = some ({ spec := rr }, { spec := er })) ∧ (∀ k, k ≠ s.nextSession → tget t.sessions k = tget s.sessions k) ∧
        t.nextSession = s.nextSession + 1)) ∧
  (∀ (s t : State) (c : Caller) (x : Session) (r : Reply),
    (Claims.Call s c 0x02 t x r → (x.closing ≠ none → exec (.sessionClose c) s = .next s) ∧ (x.closing = none → Claims.Serves (.sessionClose c) s c
      (let y : Session := { x with fseq := x.fseq + 1, begun := true, last := none, closing := some r }
      ({ t with sessions := tset t.sessions r.session y } : State).closeIfDone r.session))) ∧
    (Claims.Call s c 0x03 t x r → ∀ h, s.hdrOf c = some h →
      let bs := (s.payloadOf c).take 256
      ((h.len.toNat < 256 ∨ bs.length < 256) → Claims.Answers (.launchCall c) s c t r (status 0x70 2) []) ∧
      (256 ≤ h.len.toNat → bs.length = 256 → let a := t.accept r.session bs none 0 none r.tag
        Claims.Answers (.launchCall c) s c a.1 r a.2 [])) ∧
    (∀ n, Claims.Call s c 0x08 t x r →
      ((n < 200000 ∨ 2000000000 < n) → Claims.Bad (.setSlice c n) s c t r) ∧
      (200000 ≤ n → n ≤ 2000000000 →
        let y : Session := { x with fseq := x.fseq + 1, begun := true, last := none, slice := n }
        Claims.Answers (.setSlice c n) s c { t with sessions := tset t.sessions r.session y } r (status 0 0) []))) ∧
  (∀ (s t : State) (c : Caller) (x : Session) (r : Reply) (va pa size count : Nat) (q : Perms), Claims.Call s c 0x04 t x r →
    ((rangeOk va size count = false ∨ ∃ p ∈ s.pages x.space, va < p.va + p.size ∧ p.va < va + size * count) → Claims.Bad (.map c va pa size count q) s c t r) ∧
    (rangeOk va size count = true → (∀ p ∈ s.pages x.space, ¬(va < p.va + p.size ∧ p.va < va + size * count)) → ∃ u,
      Claims.Answers (.map c va pa size count q) s c u r (status 0 0) [] ∧
      (∀ k, k < size * count → u.walk x.space (va + k) = some (pa + k, q)) ∧
      (∀ a, (a < va ∨ va + size * count ≤ a) → u.walk x.space a = s.walk x.space a) ∧ u.waves.map Prod.fst = s.waves.map Prod.fst ∧ u.ops = s.ops)) ∧
  (∀ (s t : State) (c : Caller) (x : Session) (r : Reply) (va size count : Nat), Claims.Call s c 0x05 t x r →
    (rangeOk va size count = false → Claims.Bad (.unmap c va size count) s c t r) ∧
    (rangeOk va size count = true → (∀ p ∈ s.pages x.space, sizeOk p.size = true ∧ p.va % p.size = 0) → ∃ u,
      Claims.Answers (.unmap c va size count) s c u r (status 0 0) [] ∧
      ∀ a, u.walk x.space a = if va ≤ a ∧ a < va + size * count then none else s.walk x.space a)) ∧
  (∀ (s t : State) (c : Caller) (x : Session) (r : Reply) (va home pa : Nat) (p : Page), Claims.Call s c 0x06 t x r →
    (s.pages x.space).find? (fun p => p.va == va) = some p → isHost p.pa = false → home < 4 →
    ((s.up home = false ∨ (∀ d, homeOf p.pa = some d → s.up d = false)) → Claims.Answers (.migrate c va home pa) s c t r (status cOFFLINE 0) []) ∧
    (∀ d, s.up home = true → homeOf p.pa = some d → s.up d = true → homeOf pa = some home → homeOf (pa + p.size - 1) = some home → pa % p.size = 0 →
      s.mapped pa p.size = false → Claims.Answers (.migrate c va home pa) s c (t.shootdown x.space va p.size fun s =>
        { s.movePage p.pa pa p.size with spaces := tset s.spaces x.space ((s.pages x.space).map fun q => if q.va = va then { q with pa := pa } else q) })
        r (status 0 0) [])) ∧
  (∀ (s t : State) (c : Caller) (x : Session) (r : Reply) (src dst : CopyEnd) (bytes : Nat), Claims.Call s c 0x07 t x r →
    (((∃ a p n v, src = .remote a p n v) ∨ (∃ bus a p n v, src = .host bus ∧ dst = .remote a p n v)) → Claims.Bad (.memcpy c src dst bytes) s c t r) ∧
    ((∀ a p n v, src ≠ .remote a p n v) → (∀ bus a p n v, src ≠ .host bus ∨ dst ≠ .remote a p n v) → 
      let k : HostCopy := { id := s.nextOp, reply := r, die := s.firstUp, space := x.space, src := src, dst := dst, bytes := bytes }
      Claims.Serves (.memcpy c src dst bytes) s c
        ((t.copyLines k).foldl (fun (t : State) l => t.own k.id l) { t with nextOp := s.nextOp + 1, copies := s.copies ++ [k] }))) ∧
  (∀ (s : State) (k : HostCopy) (line : Nat), s.copies.find? (fun x => x.id == k.id) = some k → s.op k.id = none →
    (s.stillWrites k.id line = true ↔ line ∈ s.copyLines k) ∧
    exec (.engineLineRelease line) s = .next { s with owned := s.owned.filter fun x => x.1 ≠ line ∨ s.stillWrites x.2 line = true }) ∧
  (∀ (s : State) (k : HostCopy), s.copies.find? (fun x => x.id == k.id) = some k →
    let off : Instr := .transactionBytesLand k.id
    let a := s.copyEnd k.die k.space k.denied k.src k.done needR
    let b := s.copyEnd k.die k.space k.denied k.dst k.done fun _ => true
    let why := s.copyFault a b (endAddr k.src + k.done) (endAddr k.dst + k.done) (min k.len k.line.length) k.len
    let src : Nat → Nat → Byte := fun pa j => if j < k.line.length then k.line.getD j 0 else s.devRd (pa + j)
    let rest : Nat → List Byte := fun pa => (List.range (min (k.bytes - k.done - k.len) ((128 - (pa + k.len) % 128) % 128))).map fun j => src pa (k.len + j)
    let ended : State := { s with copies := s.copies.filter fun x => x.id ≠ k.id, owned := s.owned.filter fun x => x.2 ≠ k.id }
    (k.frame ≠ none → exec off s = .next s) ∧
    (k.frame = none → k.bytes ≤ k.done → exec off s = .next (ended.answer { k.reply with status := status 0 0, result := leBytes 8 k.bytes })) ∧
    (k.frame = none → k.done < k.bytes →
      (∀ code va, why = some (code, va) → exec off s = .next ((ended.copyStopRecord k.reply.session code k.done va).answer
        { k.reply with status := status code (min (k.done / 256) 0xFFFFFF), result := leBytes 8 k.done })) ∧
      (why = none → (a = .wait ∨ b = .wait) → exec off s = .next s) ∧
      (∀ pa pb va, why = none → a = .at pa → b = .at pb → k.dst = .device va → (∀ j, j < k.len → s.copyClash k.space k.src k.bytes (va + k.done + j) (pb + j) = false) →
        let u : State := (runLines pb k.len).foldl (fun (s : State) l => if (l, k.id) ∈ s.owned then s else s.own k.id l) { s with fresh := s.fresh + 1 }
        exec off s = .next ((u.devWriteBytes pb ((List.range k.len).map (src pa))).setCopy { k with done := k.done + k.len, line := rest pa })) ∧
      (∀ pa addr port n va, why = none → a = .at pa → k.dst = .remote addr port n va → ∃ u : State, exec off s = .next (u.setCopy { k with frame := some (s.nextOp, k.len), line := rest pa }) ∧
        u = { s with peerOut := u.peerOut, nextOp := s.nextOp + 1, peerSeq := u.peerSeq } ∧ ∃ f : PeerFrame, u.peerOut = s.peerOut ++ [f] ∧ f.id = s.nextOp ∧ f.addr = addr ∧
          f.port = port ∧ f.udp = s.udpPort ∧ f.session = n ∧ f.va = va + k.done ∧ f.awaits = true ∧ f.bytes = (List.range k.len).map (src pa)))) ∧
  (∀ (s t : State) (a p va : Nat) (h : FrameHdr) (bs : List Byte) (x : Session) (r : Reply), Claims.Call s (.peer a p h bs) 0x40 t x r →
    let i := Instr.dataFrame a p h va bs
    let land := t.landData s.firstUp x.space va bs (bs.length / 4096 + 2) 0
    (4032 < bs.length → Claims.Bad i s (.peer a p h bs) t r) ∧
    (bs.length ≤ 4032 → land = .wait → exec i s = .next s) ∧
    (bs.length ≤ 4032 → ∀ u, land = .done u none → Claims.Answers i s (.peer a p h bs) u r (status 0 0) (leBytes 8 bs.length)) ∧
    (bs.length ≤ 4032 → ∀ u code off at_, land = .done u (some (code, off, at_)) →
      Claims.Answers i s (.peer a p h bs) u r (status code (min (off / 256) 0xFFFFFF)) (leBytes 8 off))) ∧
  (∀ (s : State) (die space va pa : Nat) (bs : List Byte), bs ≠ [] → va % 4096 + bs.length ≤ 4096 → s.look die space va (fun _ => true) = .ok pa →
    (∀ l ∈ runLines pa bs.length, s.lineUp l = true ∧ l ∉ s.badLines) → s.landData die space va bs 2 0 = .done (s.callWrite pa bs) none)

/-- R260 to R264, R268, R280: the calls of a debugger and of halted waves. DEBUG_HALT halts the waves of its scope; DEBUG_RESUME lets one go on, with a DEBUG trap where it is asked for, at once on a resident wave: cause 0x0C, and %trappc the PC of its next issue; CONTEXT_READ writes part of the image of
a halted wave, or of a block whose waves are all halted, to host memory, its reserved bytes zero (log entry 48), and its registers as the register cache holds them; WAVE_RESUME lets a wave that HALT or a trap in its handler has halted go on at a PC; WAVE_END ends its lanes.
That a wave let go on keeps at least one clock to its next issue, and what a stop does to a trap of its clock, are the model's readings (log entries 31, 30). -/
def Obligations.DebuggerCalls : Prop :=
  ∀ (s t : State) (c : Caller) (x : Session) (r : Reply),
    (∀ scope, Claims.Call s c 0x10 t x r →
      (s.scopeWaves scope = [] → Claims.Bad (.debugHalt c scope) s c t r) ∧
      (s.scopeWaves scope ≠ [] → ∃ u, Claims.Answers (.debugHalt c scope) s c u r (status 0 0) [] ∧
        (∀ id ∈ s.scopeWaves scope, ∃ w, u.wave id = some w ∧ w.dbg = true ∧ w.runs = false) ∧
        (∀ id, id ∉ s.scopeWaves scope → u.wave id = s.wave id) ∧ u.mem = s.mem)) ∧
    (∀ id trap, Claims.Call s c 0x11 t x r →
      ((∀ w, s.wave id = some w → w.dbg = false) → Claims.Bad (.debugResume c id trap) s c t r) ∧
      (∀ w, s.wave id = some w → w.dbg = true → Claims.Answers (.debugResume c id trap) s c (t.debugGo id w trap) r (status 0 0) [])) ∧
    (∀ (u : State) (id : WaveId) (w : Wave), u.wave id = some w → ∃ y, (u.debugGo id w false).wave id = some y ∧ y.dbg = false ∧ y.mode = w.mode ∧
      y.pending = w.pending) ∧
    (∀ (u : State) (id : WaveId) (w : Wave), u.wave id = some w → w.resident = false → w.mode = .running → ∃ y, (u.debugGo id w true).wave id = some y ∧
      y.dbgTrap = true ∧ y.pending = w.pending) ∧
    (∀ (u : State) (id : WaveId) (w : Wave) (g : Grid), u.wave id = some w → u.grid id.grid = some g → w.resident = true → w.mode = .running → w.hand = none →
      ∃ (at_ : Nat × Bool) (y : Wave), (u.debugGo id w true).wave id = some y ∧ y.dbg = false ∧ y.mode = .handler ∧
        y.record.type = 0x0C ∧ (y.trapcause.extractLsb' 0 8).toNat = 0x0C ∧ y.trappc = (w.pathAt at_.1 at_.2 false).pc ∧ y.record.pc = y.trappc ∧
        (∀ p, w.nextPath = some p → at_ = p) ∧ ∃ h, y.hand = some h ∧ h.path.pc = g.rec_.handler ∧ h.split = at_.1 ∧ h.second = at_.2) ∧
    (∀ (id : WaveId) (w : Wave) (off bytes buffer : Nat), Claims.Call s c 0x12 t x r → s.wave id = some w → buffer + bytes ≤ hostBase →
      ((w.stopped = false ∨ waveImageBytes w.width w.valloc < off + bytes) → Claims.Bad (.contextRead c id false off bytes buffer) s c t r) ∧
      (w.stopped = true → off + bytes ≤ waveImageBytes w.width w.valloc →
        let u := if w.resident then t.saveImage id else t
        Claims.Answers (.contextRead c id false off bytes buffer) s c (u.hostWrite buffer ((List.range bytes).map fun k => u.waveByte id w (off + k))) r
          (status 0 0) [])) ∧
    (∀ (u : State) (id : WaveId) (w : Wave) (g : Grid) (off : Nat), u.grid id.grid = some g →
      (0x0F90 ≤ off → off < 0x1000 → u.waveByte id w off = 0) ∧
      (0x1200 ≤ off → off < 0x2000 → u.waveByte id w off = (w.pageList g.rec_.ctxBase).getD (off - 0x1200) 0) ∧
      ((off < 0x0F90 ∨ (0x1000 ≤ off ∧ off < 0x1200) ∨ 0x2000 ≤ off) → 
        (w.heldWord off = none → u.waveByte id w off = u.imageByte (u.spaceOf id.grid) (u.imageVa id w off)) ∧
        (∀ v, w.heldWord off = some v → u.waveByte id w off = (leBytes 4 v.toNat).getD (off % 4) 0)) ∧
      (∀ n, n < 128 → n / 32 ∈ w.cached → w.heldWord (0x1000 + 4 * n) = some (w.sreg n)) ∧
      (∀ v l, l < w.width → 4 + (v * w.width + l) / 32 ∈ w.cached → w.heldWord (0x2000 + 128 * w.width + 4 * (v * w.width + l)) = some (w.vreg v l))) ∧
    (∀ (id : WaveId) (b : Block) (g : Grid) (off bytes buffer : Nat), Claims.Call s c 0x12 t x r → s.block id.grid id.block = some b → s.grid id.grid = some g →
      buffer + bytes ≤ hostBase →
      ((g.rec_.blockBytes < off + bytes ∨ ∃ k ∈ s.wavesOf id.grid id.block, ∃ w, s.wave k = some w ∧ w.stopped = false) →
        Claims.Bad (.contextRead c id true off bytes buffer) s c t r) ∧
      (off + bytes ≤ g.rec_.blockBytes → (∀ k ∈ s.wavesOf id.grid id.block, ∀ w, s.wave k = some w → w.stopped = true) →
        Claims.Answers (.contextRead c id true off bytes buffer) s c (t.hostWrite buffer ((List.range bytes).map fun k => t.blockByte id.grid b (off + k))) r
          (status 0 0) [])) ∧
    (∀ (id : WaveId) (w : Wave) (pc : DWord) (mode hand second : Bool) (k : Nat), Claims.Call s c 0x13 t x r → s.wave id = some w →
      w.mode = .halted hand k second →
      ((pcOk pc = false ∨ (mode = true ∧ hand = false)) → Claims.Bad (.waveResume c id pc mode) s c t r) ∧
      (pcOk pc = true → mode = true → hand = true → ∀ h, w.hand = some h → Claims.Answers (.waveResume c id pc mode) s c
        (t.setWave id { w with mode := .handler, hand := some { h with path := { h.path with pc := pc, readyAt := max h.path.readyAt (s.clk w.core.die + 1) } } })
        r (status 0 0) []) ∧
      (pcOk pc = true → mode = false → hand = true → Claims.Answers (.waveResume c id pc mode) s c
        ((t.setWave id { w with mode := .handler }).endHandler id pc) r (status 0 0) []) ∧
      (pcOk pc = true → mode = false → hand = false → w.pending = none → Claims.Answers (.waveResume c id pc mode) s c
        (t.setWave id ({ w with mode := .running }.modPath k second false fun p => { p with pc := pc, readyAt := max p.readyAt (s.clk w.core.die + 1) }))
        r (status 0 0) [])) ∧
    (∀ (id : WaveId) (w : Wave), Claims.Call s c 0x14 t x r → s.wave id = some w →
      ((∀ hand k second, w.mode ≠ .halted hand k second) → Claims.Bad (.waveEnd c id) s c t r) ∧
      (∀ hand k second, w.mode = .halted hand k second → ∃ (y : Wave) (u : State), y = w.endLanes ∧ y.lanes = 0 ∧ y.mode = .running ∧ u = t.setWave id y ∧
        Claims.Answers (.waveEnd c id) s c (if u.mayEnd id y then u.endWave id else u) r (status 0 0) []))

/-- R12, R273 to R276, R280, R284 to R287: the management calls. CORE_RETIRE takes a core out of service and CORE_SPARE puts a spare in its place, of which a die has two; HBM_SPARE and LANE_REPAIR take in a spare channel and a
spare lane, where an address's stack is its offset's bits 51 to 12 modulo 3 (R18); DIE_RESET takes a die down and DIE_ADMIT lets it come back; CE_SET sets a counter; POWER asks for a state, which takes effect once no wave is resident where the state is IDLE;
FW_UPDATE stages an image that is signed and not too old, or waits while a die that it names has one staged, and a staged image takes the place of the one before, never lowering the minimum version; ATTEST writes a signed report, of which the spec leaves the packing of the bitmap open (log entry 8), and IDENTITY gives the identity. How many
spare lanes a link has is open too, and every repair succeeds (log entry 41).
The place 0x40 of ATTEST's buffer address and the order of a digest's bytes (log entry 38), what DIE_RESET empties, keeps and when it replies (log entries 33,
9), and where an image is read (log entry 40) are the model's. -/
def Obligations.ManagementCalls : Prop :=
  ∀ (s t : State) (c : Caller) (x : Session) (r : Reply), s.dies.length = 4 →
    (∀ core, Claims.Call s c 0x20 t x r →
      ((4 ≤ core.die ∨ 48 ≤ core.core ∨ core.core ∈ (s.die core.die).retired) → Claims.Bad (.coreRetire c core) s c t r) ∧
      (core.die < 4 → core.core < 48 → core.core ∉ (s.die core.die).retired → ∃ u, Claims.Answers (.coreRetire c core) s c u r (status 0 0) [] ∧
        core.core ∈ (u.die core.die).retired ∧ u.inService core.die core.core = false)) ∧
    (∀ core, Claims.Call s c 0x21 t x r → core.die < 4 → core.core < 48 → core.core ∈ (s.die core.die).retired →
      ((s.die core.die).spares = 0 → Claims.Answers (.coreSpare c core) s c t r (status cNO_RESOURCE 0) []) ∧
      ((s.die core.die).spares ≠ 0 → ∃ u, Claims.Answers (.coreSpare c core) s c u r (status 0 0) [] ∧ core.core ∉ (u.die core.die).retired ∧
        (u.die core.die).spares + 1 = (s.die core.die).spares)) ∧
    (∀ die stack channel, Claims.Call s c 0x22 t x r → die < 4 → stack < 3 → ∃ u, Claims.Answers (.hbmSpare c die stack channel) s c u r (status 0 0) [] ∧
      (stack, channel) ∈ (u.die die).hbmSpared) ∧
    (∀ pa, stackOf pa = ((BitVec.ofNat 64 (pa % dieSpan)).extractLsb' 12 40).toNat % 3) ∧
    (∀ die other lane, Claims.Call s c 0x23 t x r → die < 4 → other < 4 → die ≠ other → ∃ u,
      Claims.Answers (.laneRepair c die other lane) s c u r (status 0 0) [] ∧ (other, lane) ∈ (u.die die).repairedLanes ∧
      (other, lane) ∉ (u.die die).failedLanes) ∧
    (∀ die, Claims.Call s c 0x24 t x r → die < 4 →
      (((∃ d ∈ s.dies, d.resetting = true) ∨ ∃ d ∈ s.dies, d.staged ≠ none) → Claims.Answers (.dieReset c die) s c t r (status 0x72 0) []) ∧
      ((∀ d ∈ s.dies, d.resetting = false ∧ d.staged = none) →
        ((s.die die).online = false → Claims.Answers (.dieReset c die) s c t r (status cOFFLINE 0) []) ∧
        ((s.die die).online = true → (s.hearths.map Prod.fst).Nodup → ∃ u, Claims.Serves (.dieReset c die) s c u ∧ u.up die = false ∧ (u.die die).boxes = [[], [], [], []] ∧
          (u.die die).ce = [] ∧ (u.die die).pri = (s.die die).pri ∧ (u.die die).failedLanes = [] ∧ (u.die die).retired = (s.die die).retired ∧ (u.die die).spares = (s.die die).spares ∧
          (∀ k, k.1.die = die → k ∉ u.cores) ∧ (∀ h, h < 24 → u.hearth (die, h) = {})))) ∧
    (∀ die, Claims.Call s c 0x25 t x r → die < 4 →
      ((s.die die).resetting = false → Claims.Bad (.dieAdmit c die) s c t r) ∧
      ((s.die die).resetting = true → ∃ u, Claims.Answers (.dieAdmit c die) s c u r (status 0 0) [] ∧ (u.die die).resetting = false)) ∧
    (∀ die n threshold window, Claims.Call s c 0x26 t x r → die < 4 → ceCounterOk die n = true →
      let y : CeCounter := { count := 0, threshold := threshold.toNat, window := window.toNat, started := s.clk die, armed := true }
      Claims.Answers (.ceSet c die n threshold window) s c (t.modDie die fun d => { d with ce := tset d.ce n y }) r (status 0 0) []) ∧
    (∀ die st, Claims.Call s c 0x27 t x r → die < 4 → (s.die die).resetting = true → Claims.Answers (.power c die st) s c t r (status 0x72 0) []) ∧
    (∀ die st, Claims.Call s c 0x27 t x r → die < 4 → (s.die die).resetting = false →
      ((s.die die).online = false → Claims.Answers (.power c die st) s c t r (status cOFFLINE 0) []) ∧
      ((s.die die).online = true → st ≠ .idle → Claims.Answers (.power c die st) s c (t.modDie die fun d => { d with toPower := some st }) r (status 0 0) []) ∧
      ((s.die die).online = true → st = .idle → Claims.Answers (.power c die st) s c ((t.modDie die fun d => { d with toPower := some st }).evacuate
        fun k => k.die == die) r (status 0 0) [])) ∧
    (∀ die st, (s.die die).toPower = some st →
      ((st = .idle → ∀ w ∈ s.waves, w.2.resident = false ∨ w.2.core.die ≠ die) →
        exec (.powerChangeEffect die) s = .next (s.modDie die fun d => { d with power := st, toPower := none })) ∧
      (st = .idle → (∃ w ∈ s.waves, w.2.resident = true ∧ w.2.core.die = die) → exec (.powerChangeEffect die) s = .next s)) ∧
    (∀ die, (s.die die).toPower = none → exec (.powerChangeEffect die) s = .next s) ∧
    (∀ (dies : BitVec 4) (addr len : Nat), Claims.Call s c 0x28 t x r →
      let queued := ∃ d, d < 4 ∧ dies.getLsbD d = true ∧ (s.die d).staged ≠ none
      (queued → exec (.fwUpdate c dies addr len) s = .next s) ∧
      (¬queued → hostBase < addr + len → Claims.Bad (.fwUpdate c dies addr len) s c t r) ∧
      (¬queued → addr + len ≤ hostBase → (∃ d ∈ s.dies, d.resetting = true) → Claims.Answers (.fwUpdate c dies addr len) s c t r (status 0x72 0) []) ∧
      (¬queued → addr + len ≤ hostBase → (∀ d ∈ s.dies, d.resetting = false) → (∃ d, d < 4 ∧ dies.getLsbD d = true ∧ s.up d = false) →
        Claims.Answers (.fwUpdate c dies addr len) s c t r (status cOFFLINE 0) [])) ∧
    (∀ (dies : BitVec 4) (addr len : Nat), Claims.Call s c 0x28 t x r → addr + len ≤ hostBase → (∀ d ∈ s.dies, d.resetting = false) →
      (∀ d, d < 4 → dies.getLsbD d = true → s.up d = true ∧ (s.die d).staged = none) →
      let img := s.devRdN (hostBase + addr) len
      let named := (List.range 4).filter fun d => dies.getLsbD d
      ((∃ d ∈ named, Config.sm2Verify d img = false) → Claims.Answers (.fwUpdate c dies addr len) s c t r (status 0x73 0) []) ∧
      ((∀ d ∈ named, Config.sm2Verify d img = true) →
        ((∃ d ∈ named, (Config.imageVersion img).toNat < (s.die d).minimum.toNat) → Claims.Answers (.fwUpdate c dies addr len) s c t r (status 0x74 0) []) ∧
        ((∀ d ∈ named, (s.die d).minimum.toNat ≤ (Config.imageVersion img).toNat) → ∃ u, Claims.Answers (.fwUpdate c dies addr len) s c u r (status 0 0) [] ∧
          (∀ d ∈ named, (u.die d).staged = some img) ∧ (∀ d, d < 4 → d ∉ named → u.die d = s.die d)))) ∧
    (∀ die, s.serving die = true → exec (.fwImageSwitch die) s = .next s) ∧
    (∀ die img, die < 4 → (s.die die).staged = some img → s.serving die = false → ∃ u, exec (.fwImageSwitch die) s = .next u ∧ u = { s with dies := u.dies } ∧
      (u.die die).staged = none ∧ (u.die die).digest = Config.sm3 img ∧ (u.die die).version = Config.imageVersion img ∧
      (s.die die).minimum.toNat ≤ (u.die die).minimum.toNat ∧ (∀ d, d ≠ die → u.die d = s.die d)) ∧
    (∀ nonce buffer, Claims.Call s c 0x29 t x r →
      ((buffer % 64 ≠ 0 ∨ hostBase < buffer + 320) → Claims.Answers (.attest c nonce buffer) s c t r (status 0x70 0x40) []) ∧
      (buffer % 64 = 0 → buffer + 320 ≤ hostBase →
        let rep := ((List.range 32).map fun k => nonce.getD k 0) ++ leBytes 32 Config.bootRomDigest.toNat ++
          ((List.range 4).flatMap fun d => if s.up d = true then leBytes 32 (s.die d).digest.toNat else List.replicate 32 0) ++
          ((List.range 4).flatMap fun d => leBytes 2 (s.die d).minimum.toNat) ++
          leBytes 8 (Config.reportBitmap ((List.range 4).map s.up) (s.dies.map fun d => sortBy (fun a b => decide (a ≤ b)) d.retired)
            (s.dies.map Die.spares)).toNat ++ List.replicate 48 0
        rep.length = 256 ∧ Claims.Answers (.attest c nonce buffer) s c (({ t with fresh := t.fresh + 1 } : State).hostWrite buffer
          (rep ++ leBytes 64 (Config.sm2Sign (Config.sm3 rep)).toNat)) r (status 0 0) (leBytes 4 320 ++ leBytes 32 (Config.sm3 rep).toNat))) ∧
    (Claims.Call s c 0x2A t x r → Claims.Answers (.identity c) s c t r (status 0 0) Config.identityBytes)
end

