-- ==== Sys2Proof/Laws/State.lean ====
section
/-! SUPPORT. What each update of the state leaves: one statement for each update, with a conjunct for each field that it does not
write. -/

namespace Sys2Proof.Machine

/-- `setWave` writes only waves. -/
@[simp] theorem State.setWave_keeps (s : State) (w : WaveId) (x : Wave) :
    (s.setWave w x).now = s.now ∧ (s.setWave w x).mem = s.mem ∧ (s.setWave w x).d0held = s.d0held ∧
    (s.setWave w x).l2 = s.l2 ∧ (s.setWave w x).badLines = s.badLines ∧ (s.setWave w x).owned = s.owned ∧
    (s.setWave w x).spaces = s.spaces ∧ (s.setWave w x).dies = s.dies ∧ (s.setWave w x).cores = s.cores ∧
    (s.setWave w x).hearths = s.hearths ∧ (s.setWave w x).blocks = s.blocks ∧ (s.setWave w x).groups = s.groups ∧
    (s.setWave w x).grids = s.grids ∧ (s.setWave w x).ops = s.ops ∧ (s.setWave w x).suspended = s.suspended ∧
    (s.setWave w x).savedTiles = s.savedTiles ∧ (s.setWave w x).sessions = s.sessions ∧ (s.setWave w x).opens = s.opens ∧
    (s.setWave w x).letterbox = s.letterbox ∧ (s.setWave w x).frames = s.frames ∧
    (s.setWave w x).heldReplies = s.heldReplies ∧ (s.setWave w x).mgmt = s.mgmt ∧ (s.setWave w x).records = s.records ∧
    (s.setWave w x).msix = s.msix ∧ (s.setWave w x).peerOut = s.peerOut ∧ (s.setWave w x).copies = s.copies ∧
    (s.setWave w x).peerSeq = s.peerSeq ∧ (s.setWave w x).priWait = s.priWait ∧ (s.setWave w x).atsDone = s.atsDone ∧
    (s.setWave w x).udpPort = s.udpPort ∧ (s.setWave w x).lastRead = s.lastRead ∧ (s.setWave w x).seq = s.seq ∧
    (s.setWave w x).inputs = s.inputs ∧ (s.setWave w x).auto = s.auto ∧ (s.setWave w x).fresh = s.fresh ∧
    (s.setWave w x).cur = s.cur ∧ (s.setWave w x).nextOp = s.nextOp ∧ (s.setWave w x).nextGrid = s.nextGrid ∧
    (s.setWave w x).nextSession = s.nextSession ∧ (s.setWave w x).nextAge = s.nextAge := by
  simp [State.setWave]

/-- `modWave` writes only waves. -/
@[simp] theorem State.modWave_keeps (s : State) (w : WaveId) (f : Wave → Wave) :
    (s.modWave w f).now = s.now ∧ (s.modWave w f).mem = s.mem ∧ (s.modWave w f).d0held = s.d0held ∧
    (s.modWave w f).l2 = s.l2 ∧ (s.modWave w f).badLines = s.badLines ∧ (s.modWave w f).owned = s.owned ∧
    (s.modWave w f).spaces = s.spaces ∧ (s.modWave w f).dies = s.dies ∧ (s.modWave w f).cores = s.cores ∧
    (s.modWave w f).hearths = s.hearths ∧ (s.modWave w f).blocks = s.blocks ∧ (s.modWave w f).groups = s.groups ∧
    (s.modWave w f).grids = s.grids ∧ (s.modWave w f).ops = s.ops ∧ (s.modWave w f).suspended = s.suspended ∧
    (s.modWave w f).savedTiles = s.savedTiles ∧ (s.modWave w f).sessions = s.sessions ∧ (s.modWave w f).opens = s.opens ∧
    (s.modWave w f).letterbox = s.letterbox ∧ (s.modWave w f).frames = s.frames ∧
    (s.modWave w f).heldReplies = s.heldReplies ∧ (s.modWave w f).mgmt = s.mgmt ∧ (s.modWave w f).records = s.records ∧
    (s.modWave w f).msix = s.msix ∧ (s.modWave w f).peerOut = s.peerOut ∧ (s.modWave w f).copies = s.copies ∧
    (s.modWave w f).peerSeq = s.peerSeq ∧ (s.modWave w f).priWait = s.priWait ∧ (s.modWave w f).atsDone = s.atsDone ∧
    (s.modWave w f).udpPort = s.udpPort ∧ (s.modWave w f).lastRead = s.lastRead ∧ (s.modWave w f).seq = s.seq ∧
    (s.modWave w f).inputs = s.inputs ∧ (s.modWave w f).auto = s.auto ∧ (s.modWave w f).fresh = s.fresh ∧
    (s.modWave w f).cur = s.cur ∧ (s.modWave w f).nextOp = s.nextOp ∧ (s.modWave w f).nextGrid = s.nextGrid ∧
    (s.modWave w f).nextSession = s.nextSession ∧ (s.modWave w f).nextAge = s.nextAge := by
  unfold State.modWave; split <;> simp [State.setWave]

/-- `modCore` writes only cores. -/
@[simp] theorem State.modCore_keeps (s : State) (c : CoreId) (f : Core → Core) :
    (s.modCore c f).now = s.now ∧ (s.modCore c f).mem = s.mem ∧ (s.modCore c f).d0held = s.d0held ∧
    (s.modCore c f).l2 = s.l2 ∧ (s.modCore c f).badLines = s.badLines ∧ (s.modCore c f).owned = s.owned ∧
    (s.modCore c f).spaces = s.spaces ∧ (s.modCore c f).dies = s.dies ∧ (s.modCore c f).hearths = s.hearths ∧
    (s.modCore c f).waves = s.waves ∧ (s.modCore c f).blocks = s.blocks ∧ (s.modCore c f).groups = s.groups ∧
    (s.modCore c f).grids = s.grids ∧ (s.modCore c f).ops = s.ops ∧ (s.modCore c f).suspended = s.suspended ∧
    (s.modCore c f).savedTiles = s.savedTiles ∧ (s.modCore c f).sessions = s.sessions ∧ (s.modCore c f).opens = s.opens ∧
    (s.modCore c f).letterbox = s.letterbox ∧ (s.modCore c f).frames = s.frames ∧
    (s.modCore c f).heldReplies = s.heldReplies ∧ (s.modCore c f).mgmt = s.mgmt ∧ (s.modCore c f).records = s.records ∧
    (s.modCore c f).msix = s.msix ∧ (s.modCore c f).peerOut = s.peerOut ∧ (s.modCore c f).copies = s.copies ∧
    (s.modCore c f).peerSeq = s.peerSeq ∧ (s.modCore c f).priWait = s.priWait ∧ (s.modCore c f).atsDone = s.atsDone ∧
    (s.modCore c f).udpPort = s.udpPort ∧ (s.modCore c f).lastRead = s.lastRead ∧ (s.modCore c f).seq = s.seq ∧
    (s.modCore c f).inputs = s.inputs ∧ (s.modCore c f).auto = s.auto ∧ (s.modCore c f).fresh = s.fresh ∧
    (s.modCore c f).cur = s.cur ∧ (s.modCore c f).nextOp = s.nextOp ∧ (s.modCore c f).nextGrid = s.nextGrid ∧
    (s.modCore c f).nextSession = s.nextSession ∧ (s.modCore c f).nextAge = s.nextAge := by
  simp [State.modCore]

/-- `modDie` writes only dies. -/
@[simp] theorem State.modDie_keeps (s : State) (d : Nat) (f : Die → Die) :
    (s.modDie d f).now = s.now ∧ (s.modDie d f).mem = s.mem ∧ (s.modDie d f).d0held = s.d0held ∧ (s.modDie d f).l2 = s.l2 ∧
    (s.modDie d f).badLines = s.badLines ∧ (s.modDie d f).owned = s.owned ∧ (s.modDie d f).spaces = s.spaces ∧
    (s.modDie d f).cores = s.cores ∧ (s.modDie d f).hearths = s.hearths ∧ (s.modDie d f).waves = s.waves ∧
    (s.modDie d f).blocks = s.blocks ∧ (s.modDie d f).groups = s.groups ∧ (s.modDie d f).grids = s.grids ∧
    (s.modDie d f).ops = s.ops ∧ (s.modDie d f).suspended = s.suspended ∧ (s.modDie d f).savedTiles = s.savedTiles ∧
    (s.modDie d f).sessions = s.sessions ∧ (s.modDie d f).opens = s.opens ∧ (s.modDie d f).letterbox = s.letterbox ∧
    (s.modDie d f).frames = s.frames ∧ (s.modDie d f).heldReplies = s.heldReplies ∧ (s.modDie d f).mgmt = s.mgmt ∧
    (s.modDie d f).records = s.records ∧ (s.modDie d f).msix = s.msix ∧ (s.modDie d f).peerOut = s.peerOut ∧
    (s.modDie d f).copies = s.copies ∧ (s.modDie d f).peerSeq = s.peerSeq ∧ (s.modDie d f).priWait = s.priWait ∧
    (s.modDie d f).atsDone = s.atsDone ∧ (s.modDie d f).udpPort = s.udpPort ∧ (s.modDie d f).lastRead = s.lastRead ∧
    (s.modDie d f).seq = s.seq ∧ (s.modDie d f).inputs = s.inputs ∧ (s.modDie d f).auto = s.auto ∧
    (s.modDie d f).fresh = s.fresh ∧ (s.modDie d f).cur = s.cur ∧ (s.modDie d f).nextOp = s.nextOp ∧
    (s.modDie d f).nextGrid = s.nextGrid ∧ (s.modDie d f).nextSession = s.nextSession ∧
    (s.modDie d f).nextAge = s.nextAge := by
  simp [State.modDie]

/-- `modHearth` writes only hearths. -/
@[simp] theorem State.modHearth_keeps (s : State) (k : Nat × Nat) (f : Hearth → Hearth) :
    (s.modHearth k f).now = s.now ∧ (s.modHearth k f).mem = s.mem ∧ (s.modHearth k f).d0held = s.d0held ∧
    (s.modHearth k f).l2 = s.l2 ∧ (s.modHearth k f).badLines = s.badLines ∧ (s.modHearth k f).owned = s.owned ∧
    (s.modHearth k f).spaces = s.spaces ∧ (s.modHearth k f).dies = s.dies ∧ (s.modHearth k f).cores = s.cores ∧
    (s.modHearth k f).waves = s.waves ∧ (s.modHearth k f).blocks = s.blocks ∧ (s.modHearth k f).groups = s.groups ∧
    (s.modHearth k f).grids = s.grids ∧ (s.modHearth k f).ops = s.ops ∧ (s.modHearth k f).suspended = s.suspended ∧
    (s.modHearth k f).savedTiles = s.savedTiles ∧ (s.modHearth k f).sessions = s.sessions ∧
    (s.modHearth k f).opens = s.opens ∧ (s.modHearth k f).letterbox = s.letterbox ∧ (s.modHearth k f).frames = s.frames ∧
    (s.modHearth k f).heldReplies = s.heldReplies ∧ (s.modHearth k f).mgmt = s.mgmt ∧
    (s.modHearth k f).records = s.records ∧ (s.modHearth k f).msix = s.msix ∧ (s.modHearth k f).peerOut = s.peerOut ∧
    (s.modHearth k f).copies = s.copies ∧ (s.modHearth k f).peerSeq = s.peerSeq ∧ (s.modHearth k f).priWait = s.priWait ∧
    (s.modHearth k f).atsDone = s.atsDone ∧ (s.modHearth k f).udpPort = s.udpPort ∧
    (s.modHearth k f).lastRead = s.lastRead ∧ (s.modHearth k f).seq = s.seq ∧ (s.modHearth k f).inputs = s.inputs ∧
    (s.modHearth k f).auto = s.auto ∧ (s.modHearth k f).fresh = s.fresh ∧ (s.modHearth k f).cur = s.cur ∧
    (s.modHearth k f).nextOp = s.nextOp ∧ (s.modHearth k f).nextGrid = s.nextGrid ∧
    (s.modHearth k f).nextSession = s.nextSession ∧ (s.modHearth k f).nextAge = s.nextAge := by
  simp [State.modHearth]

/-- `modBlock` writes only blocks. -/
@[simp] theorem State.modBlock_keeps (s : State) (g b : Nat) (f : Block → Block) :
    (s.modBlock g b f).now = s.now ∧ (s.modBlock g b f).mem = s.mem ∧ (s.modBlock g b f).d0held = s.d0held ∧
    (s.modBlock g b f).l2 = s.l2 ∧ (s.modBlock g b f).badLines = s.badLines ∧ (s.modBlock g b f).owned = s.owned ∧
    (s.modBlock g b f).spaces = s.spaces ∧ (s.modBlock g b f).dies = s.dies ∧ (s.modBlock g b f).cores = s.cores ∧
    (s.modBlock g b f).hearths = s.hearths ∧ (s.modBlock g b f).waves = s.waves ∧ (s.modBlock g b f).groups = s.groups ∧
    (s.modBlock g b f).grids = s.grids ∧ (s.modBlock g b f).ops = s.ops ∧ (s.modBlock g b f).suspended = s.suspended ∧
    (s.modBlock g b f).savedTiles = s.savedTiles ∧ (s.modBlock g b f).sessions = s.sessions ∧
    (s.modBlock g b f).opens = s.opens ∧ (s.modBlock g b f).letterbox = s.letterbox ∧ (s.modBlock g b f).frames = s.frames ∧
    (s.modBlock g b f).heldReplies = s.heldReplies ∧ (s.modBlock g b f).mgmt = s.mgmt ∧
    (s.modBlock g b f).records = s.records ∧ (s.modBlock g b f).msix = s.msix ∧ (s.modBlock g b f).peerOut = s.peerOut ∧
    (s.modBlock g b f).copies = s.copies ∧ (s.modBlock g b f).peerSeq = s.peerSeq ∧ (s.modBlock g b f).priWait = s.priWait ∧
    (s.modBlock g b f).atsDone = s.atsDone ∧ (s.modBlock g b f).udpPort = s.udpPort ∧
    (s.modBlock g b f).lastRead = s.lastRead ∧ (s.modBlock g b f).seq = s.seq ∧ (s.modBlock g b f).inputs = s.inputs ∧
    (s.modBlock g b f).auto = s.auto ∧ (s.modBlock g b f).fresh = s.fresh ∧ (s.modBlock g b f).cur = s.cur ∧
    (s.modBlock g b f).nextOp = s.nextOp ∧ (s.modBlock g b f).nextGrid = s.nextGrid ∧
    (s.modBlock g b f).nextSession = s.nextSession ∧ (s.modBlock g b f).nextAge = s.nextAge := by
  unfold State.modBlock; split <;> simp

/-- `modGroup` writes only groups. -/
@[simp] theorem State.modGroup_keeps (s : State) (g c : Nat) (f : Group → Group) :
    (s.modGroup g c f).now = s.now ∧ (s.modGroup g c f).mem = s.mem ∧ (s.modGroup g c f).d0held = s.d0held ∧
    (s.modGroup g c f).l2 = s.l2 ∧ (s.modGroup g c f).badLines = s.badLines ∧ (s.modGroup g c f).owned = s.owned ∧
    (s.modGroup g c f).spaces = s.spaces ∧ (s.modGroup g c f).dies = s.dies ∧ (s.modGroup g c f).cores = s.cores ∧
    (s.modGroup g c f).hearths = s.hearths ∧ (s.modGroup g c f).waves = s.waves ∧ (s.modGroup g c f).blocks = s.blocks ∧
    (s.modGroup g c f).grids = s.grids ∧ (s.modGroup g c f).ops = s.ops ∧ (s.modGroup g c f).suspended = s.suspended ∧
    (s.modGroup g c f).savedTiles = s.savedTiles ∧ (s.modGroup g c f).sessions = s.sessions ∧
    (s.modGroup g c f).opens = s.opens ∧ (s.modGroup g c f).letterbox = s.letterbox ∧ (s.modGroup g c f).frames = s.frames ∧
    (s.modGroup g c f).heldReplies = s.heldReplies ∧ (s.modGroup g c f).mgmt = s.mgmt ∧
    (s.modGroup g c f).records = s.records ∧ (s.modGroup g c f).msix = s.msix ∧ (s.modGroup g c f).peerOut = s.peerOut ∧
    (s.modGroup g c f).copies = s.copies ∧ (s.modGroup g c f).peerSeq = s.peerSeq ∧ (s.modGroup g c f).priWait = s.priWait ∧
    (s.modGroup g c f).atsDone = s.atsDone ∧ (s.modGroup g c f).udpPort = s.udpPort ∧
    (s.modGroup g c f).lastRead = s.lastRead ∧ (s.modGroup g c f).seq = s.seq ∧ (s.modGroup g c f).inputs = s.inputs ∧
    (s.modGroup g c f).auto = s.auto ∧ (s.modGroup g c f).fresh = s.fresh ∧ (s.modGroup g c f).cur = s.cur ∧
    (s.modGroup g c f).nextOp = s.nextOp ∧ (s.modGroup g c f).nextGrid = s.nextGrid ∧
    (s.modGroup g c f).nextSession = s.nextSession ∧ (s.modGroup g c f).nextAge = s.nextAge := by
  unfold State.modGroup; split <;> simp

/-- `modGrid` writes only grids. -/
@[simp] theorem State.modGrid_keeps (s : State) (g : Nat) (f : Grid → Grid) :
    (s.modGrid g f).now = s.now ∧ (s.modGrid g f).mem = s.mem ∧ (s.modGrid g f).d0held = s.d0held ∧
    (s.modGrid g f).l2 = s.l2 ∧ (s.modGrid g f).badLines = s.badLines ∧ (s.modGrid g f).owned = s.owned ∧
    (s.modGrid g f).spaces = s.spaces ∧ (s.modGrid g f).dies = s.dies ∧ (s.modGrid g f).cores = s.cores ∧
    (s.modGrid g f).hearths = s.hearths ∧ (s.modGrid g f).waves = s.waves ∧ (s.modGrid g f).blocks = s.blocks ∧
    (s.modGrid g f).groups = s.groups ∧ (s.modGrid g f).ops = s.ops ∧ (s.modGrid g f).suspended = s.suspended ∧
    (s.modGrid g f).savedTiles = s.savedTiles ∧ (s.modGrid g f).sessions = s.sessions ∧ (s.modGrid g f).opens = s.opens ∧
    (s.modGrid g f).letterbox = s.letterbox ∧ (s.modGrid g f).frames = s.frames ∧
    (s.modGrid g f).heldReplies = s.heldReplies ∧ (s.modGrid g f).mgmt = s.mgmt ∧ (s.modGrid g f).records = s.records ∧
    (s.modGrid g f).msix = s.msix ∧ (s.modGrid g f).peerOut = s.peerOut ∧ (s.modGrid g f).copies = s.copies ∧
    (s.modGrid g f).peerSeq = s.peerSeq ∧ (s.modGrid g f).priWait = s.priWait ∧ (s.modGrid g f).atsDone = s.atsDone ∧
    (s.modGrid g f).udpPort = s.udpPort ∧ (s.modGrid g f).lastRead = s.lastRead ∧ (s.modGrid g f).seq = s.seq ∧
    (s.modGrid g f).inputs = s.inputs ∧ (s.modGrid g f).auto = s.auto ∧ (s.modGrid g f).fresh = s.fresh ∧
    (s.modGrid g f).cur = s.cur ∧ (s.modGrid g f).nextOp = s.nextOp ∧ (s.modGrid g f).nextGrid = s.nextGrid ∧
    (s.modGrid g f).nextSession = s.nextSession ∧ (s.modGrid g f).nextAge = s.nextAge := by
  unfold State.modGrid; split <;> simp

/-- `wrByte` writes only mem. -/
@[simp] theorem State.wrByte_keeps (s : State) (pa : Nat) (b : Byte) :
    (s.wrByte pa b).now = s.now ∧ (s.wrByte pa b).d0held = s.d0held ∧ (s.wrByte pa b).l2 = s.l2 ∧
    (s.wrByte pa b).badLines = s.badLines ∧ (s.wrByte pa b).owned = s.owned ∧ (s.wrByte pa b).spaces = s.spaces ∧
    (s.wrByte pa b).dies = s.dies ∧ (s.wrByte pa b).cores = s.cores ∧ (s.wrByte pa b).hearths = s.hearths ∧
    (s.wrByte pa b).waves = s.waves ∧ (s.wrByte pa b).blocks = s.blocks ∧ (s.wrByte pa b).groups = s.groups ∧
    (s.wrByte pa b).grids = s.grids ∧ (s.wrByte pa b).ops = s.ops ∧ (s.wrByte pa b).suspended = s.suspended ∧
    (s.wrByte pa b).savedTiles = s.savedTiles ∧ (s.wrByte pa b).sessions = s.sessions ∧ (s.wrByte pa b).opens = s.opens ∧
    (s.wrByte pa b).letterbox = s.letterbox ∧ (s.wrByte pa b).frames = s.frames ∧
    (s.wrByte pa b).heldReplies = s.heldReplies ∧ (s.wrByte pa b).mgmt = s.mgmt ∧ (s.wrByte pa b).records = s.records ∧
    (s.wrByte pa b).msix = s.msix ∧ (s.wrByte pa b).peerOut = s.peerOut ∧ (s.wrByte pa b).copies = s.copies ∧
    (s.wrByte pa b).peerSeq = s.peerSeq ∧ (s.wrByte pa b).priWait = s.priWait ∧ (s.wrByte pa b).atsDone = s.atsDone ∧
    (s.wrByte pa b).udpPort = s.udpPort ∧ (s.wrByte pa b).lastRead = s.lastRead ∧ (s.wrByte pa b).seq = s.seq ∧
    (s.wrByte pa b).inputs = s.inputs ∧ (s.wrByte pa b).auto = s.auto ∧ (s.wrByte pa b).fresh = s.fresh ∧
    (s.wrByte pa b).cur = s.cur ∧ (s.wrByte pa b).nextOp = s.nextOp ∧ (s.wrByte pa b).nextGrid = s.nextGrid ∧
    (s.wrByte pa b).nextSession = s.nextSession ∧ (s.wrByte pa b).nextAge = s.nextAge := by
  simp [State.wrByte]

/-- `wrBytes` writes only mem. -/
@[simp] theorem State.wrBytes_keeps (s : State) (pa : Nat) (bs : List Byte) :
    (s.wrBytes pa bs).now = s.now ∧ (s.wrBytes pa bs).d0held = s.d0held ∧ (s.wrBytes pa bs).l2 = s.l2 ∧
    (s.wrBytes pa bs).badLines = s.badLines ∧ (s.wrBytes pa bs).owned = s.owned ∧ (s.wrBytes pa bs).spaces = s.spaces ∧
    (s.wrBytes pa bs).dies = s.dies ∧ (s.wrBytes pa bs).cores = s.cores ∧ (s.wrBytes pa bs).hearths = s.hearths ∧
    (s.wrBytes pa bs).waves = s.waves ∧ (s.wrBytes pa bs).blocks = s.blocks ∧ (s.wrBytes pa bs).groups = s.groups ∧
    (s.wrBytes pa bs).grids = s.grids ∧ (s.wrBytes pa bs).ops = s.ops ∧ (s.wrBytes pa bs).suspended = s.suspended ∧
    (s.wrBytes pa bs).savedTiles = s.savedTiles ∧ (s.wrBytes pa bs).sessions = s.sessions ∧
    (s.wrBytes pa bs).opens = s.opens ∧ (s.wrBytes pa bs).letterbox = s.letterbox ∧ (s.wrBytes pa bs).frames = s.frames ∧
    (s.wrBytes pa bs).heldReplies = s.heldReplies ∧ (s.wrBytes pa bs).mgmt = s.mgmt ∧
    (s.wrBytes pa bs).records = s.records ∧ (s.wrBytes pa bs).msix = s.msix ∧ (s.wrBytes pa bs).peerOut = s.peerOut ∧
    (s.wrBytes pa bs).copies = s.copies ∧ (s.wrBytes pa bs).peerSeq = s.peerSeq ∧ (s.wrBytes pa bs).priWait = s.priWait ∧
    (s.wrBytes pa bs).atsDone = s.atsDone ∧ (s.wrBytes pa bs).udpPort = s.udpPort ∧
    (s.wrBytes pa bs).lastRead = s.lastRead ∧ (s.wrBytes pa bs).seq = s.seq ∧ (s.wrBytes pa bs).inputs = s.inputs ∧
    (s.wrBytes pa bs).auto = s.auto ∧ (s.wrBytes pa bs).fresh = s.fresh ∧ (s.wrBytes pa bs).cur = s.cur ∧
    (s.wrBytes pa bs).nextOp = s.nextOp ∧ (s.wrBytes pa bs).nextGrid = s.nextGrid ∧
    (s.wrBytes pa bs).nextSession = s.nextSession ∧ (s.wrBytes pa bs).nextAge = s.nextAge := by
  induction bs generalizing s pa with
  | nil => simp [State.wrBytes]
  | cons b t ih => simpa [State.wrBytes, State.wrByte] using ih (s.wrByte pa b) (pa + 1)

/-- `addOp` writes only ops and nextOp. -/
@[simp] theorem State.addOp_keeps (s : State) (o : Op) :
    (s.addOp o).now = s.now ∧ (s.addOp o).mem = s.mem ∧ (s.addOp o).d0held = s.d0held ∧ (s.addOp o).l2 = s.l2 ∧
    (s.addOp o).badLines = s.badLines ∧ (s.addOp o).owned = s.owned ∧ (s.addOp o).spaces = s.spaces ∧
    (s.addOp o).dies = s.dies ∧ (s.addOp o).cores = s.cores ∧ (s.addOp o).hearths = s.hearths ∧
    (s.addOp o).waves = s.waves ∧ (s.addOp o).blocks = s.blocks ∧ (s.addOp o).groups = s.groups ∧
    (s.addOp o).grids = s.grids ∧ (s.addOp o).suspended = s.suspended ∧ (s.addOp o).savedTiles = s.savedTiles ∧
    (s.addOp o).sessions = s.sessions ∧ (s.addOp o).opens = s.opens ∧ (s.addOp o).letterbox = s.letterbox ∧
    (s.addOp o).frames = s.frames ∧ (s.addOp o).heldReplies = s.heldReplies ∧ (s.addOp o).mgmt = s.mgmt ∧
    (s.addOp o).records = s.records ∧ (s.addOp o).msix = s.msix ∧ (s.addOp o).peerOut = s.peerOut ∧
    (s.addOp o).copies = s.copies ∧ (s.addOp o).peerSeq = s.peerSeq ∧ (s.addOp o).priWait = s.priWait ∧
    (s.addOp o).atsDone = s.atsDone ∧ (s.addOp o).udpPort = s.udpPort ∧ (s.addOp o).lastRead = s.lastRead ∧
    (s.addOp o).seq = s.seq ∧ (s.addOp o).inputs = s.inputs ∧ (s.addOp o).auto = s.auto ∧ (s.addOp o).fresh = s.fresh ∧
    (s.addOp o).cur = s.cur ∧ (s.addOp o).nextGrid = s.nextGrid ∧ (s.addOp o).nextSession = s.nextSession ∧
    (s.addOp o).nextAge = s.nextAge := by
  simp [State.addOp]

/-- `modOp` writes only ops. -/
@[simp] theorem State.modOp_keeps (s : State) (n : Nat) (f : Op → Op) :
    (s.modOp n f).now = s.now ∧ (s.modOp n f).mem = s.mem ∧ (s.modOp n f).d0held = s.d0held ∧ (s.modOp n f).l2 = s.l2 ∧
    (s.modOp n f).badLines = s.badLines ∧ (s.modOp n f).owned = s.owned ∧ (s.modOp n f).spaces = s.spaces ∧
    (s.modOp n f).dies = s.dies ∧ (s.modOp n f).cores = s.cores ∧ (s.modOp n f).hearths = s.hearths ∧
    (s.modOp n f).waves = s.waves ∧ (s.modOp n f).blocks = s.blocks ∧ (s.modOp n f).groups = s.groups ∧
    (s.modOp n f).grids = s.grids ∧ (s.modOp n f).suspended = s.suspended ∧ (s.modOp n f).savedTiles = s.savedTiles ∧
    (s.modOp n f).sessions = s.sessions ∧ (s.modOp n f).opens = s.opens ∧ (s.modOp n f).letterbox = s.letterbox ∧
    (s.modOp n f).frames = s.frames ∧ (s.modOp n f).heldReplies = s.heldReplies ∧ (s.modOp n f).mgmt = s.mgmt ∧
    (s.modOp n f).records = s.records ∧ (s.modOp n f).msix = s.msix ∧ (s.modOp n f).peerOut = s.peerOut ∧
    (s.modOp n f).copies = s.copies ∧ (s.modOp n f).peerSeq = s.peerSeq ∧ (s.modOp n f).priWait = s.priWait ∧
    (s.modOp n f).atsDone = s.atsDone ∧ (s.modOp n f).udpPort = s.udpPort ∧ (s.modOp n f).lastRead = s.lastRead ∧
    (s.modOp n f).seq = s.seq ∧ (s.modOp n f).inputs = s.inputs ∧ (s.modOp n f).auto = s.auto ∧
    (s.modOp n f).fresh = s.fresh ∧ (s.modOp n f).cur = s.cur ∧ (s.modOp n f).nextOp = s.nextOp ∧
    (s.modOp n f).nextGrid = s.nextGrid ∧ (s.modOp n f).nextSession = s.nextSession ∧
    (s.modOp n f).nextAge = s.nextAge := by
  simp [State.modOp]

/-- `modOpen` writes only ops. -/
@[simp] theorem State.modOpen_keeps (s : State) (n : Nat) (f : OpenOp → OpenOp) :
    (s.modOpen n f).now = s.now ∧ (s.modOpen n f).mem = s.mem ∧ (s.modOpen n f).d0held = s.d0held ∧
    (s.modOpen n f).l2 = s.l2 ∧ (s.modOpen n f).badLines = s.badLines ∧ (s.modOpen n f).owned = s.owned ∧
    (s.modOpen n f).spaces = s.spaces ∧ (s.modOpen n f).dies = s.dies ∧ (s.modOpen n f).cores = s.cores ∧
    (s.modOpen n f).hearths = s.hearths ∧ (s.modOpen n f).waves = s.waves ∧ (s.modOpen n f).blocks = s.blocks ∧
    (s.modOpen n f).groups = s.groups ∧ (s.modOpen n f).grids = s.grids ∧ (s.modOpen n f).suspended = s.suspended ∧
    (s.modOpen n f).savedTiles = s.savedTiles ∧ (s.modOpen n f).sessions = s.sessions ∧ (s.modOpen n f).opens = s.opens ∧
    (s.modOpen n f).letterbox = s.letterbox ∧ (s.modOpen n f).frames = s.frames ∧
    (s.modOpen n f).heldReplies = s.heldReplies ∧ (s.modOpen n f).mgmt = s.mgmt ∧ (s.modOpen n f).records = s.records ∧
    (s.modOpen n f).msix = s.msix ∧ (s.modOpen n f).peerOut = s.peerOut ∧ (s.modOpen n f).copies = s.copies ∧
    (s.modOpen n f).peerSeq = s.peerSeq ∧ (s.modOpen n f).priWait = s.priWait ∧ (s.modOpen n f).atsDone = s.atsDone ∧
    (s.modOpen n f).udpPort = s.udpPort ∧ (s.modOpen n f).lastRead = s.lastRead ∧ (s.modOpen n f).seq = s.seq ∧
    (s.modOpen n f).inputs = s.inputs ∧ (s.modOpen n f).auto = s.auto ∧ (s.modOpen n f).fresh = s.fresh ∧
    (s.modOpen n f).cur = s.cur ∧ (s.modOpen n f).nextOp = s.nextOp ∧ (s.modOpen n f).nextGrid = s.nextGrid ∧
    (s.modOpen n f).nextSession = s.nextSession ∧ (s.modOpen n f).nextAge = s.nextAge := by
  simp [State.modOpen, State.modOp]

end Sys2Proof.Machine
end

