-- ==== Sys2Proof/Laws/Tables.lean ====
section
/-! SUPPORT. Tables, sparse maps and memory: a read after a write, and the canonical form that every write keeps (01 R17). -/

namespace Sys2Proof.Machine

variable {κ α : Type}

/-! Tables. -/

@[simp] theorem tget_tset [DecidableEq κ] (t : Tbl κ α) (k j : κ) (x : α) :
    tget (tset t k x) j = if k = j then some x else tget t j := by
  induction t with
  | nil => simp [tset, tget]
  | cons e t ih =>
    by_cases h : e.1 = k
    · subst h; simp only [tset, if_pos, tget]; split <;> simp_all
    · simp only [tset, h, if_false, tget, ih]
      split
      · rename_i h2; subst h2; simp [Ne.symm h]
      · rfl

/-- A record set to what it is leaves the table. -/
theorem tset_same [DecidableEq κ] (t : Tbl κ α) (k : κ) (x : α) (h : tget t k = some x) : tset t k x = t := by
  induction t with
  | nil => simp [tget] at h
  | cons e t ih =>
    obtain ⟨j, y⟩ := e
    by_cases hj : j = k
    · subst hj; simp [tget] at h; simp [tset, h]
    · simp [tget, hj] at h; simp [tset, hj, ih h]

/-! Sparse maps. -/

/-- The keys of a list of cells rise strictly. -/
def Rising (m : List (Nat × α)) : Prop := m.Pairwise fun x y => x.1 < y.1

theorem cset_mem (m : List (Nat × α)) (k : Nat) (x : α) : ∀ c ∈ cset m k x, c = (k, x) ∨ c ∈ m := by
  induction m with
  | nil => intro c hc; simpa [cset] using hc
  | cons e t ih =>
    intro c hc
    simp only [cset] at hc
    repeat' split at hc
    all_goals simp only [List.mem_cons] at hc ⊢
    · tauto
    · tauto
    · rcases hc with h | h
      · simp [h]
      · rcases ih c h with h | h <;> simp [h]

theorem cset_rising (m : List (Nat × α)) (k : Nat) (x : α) (h : Rising m) : Rising (cset m k x) := by
  induction m with
  | nil => simp [cset, Rising]
  | cons e t ih =>
    simp only [Rising, List.pairwise_cons] at h
    obtain ⟨h1, h2⟩ := h
    simp only [cset]
    repeat' split
    · rename_i hk; subst hk; exact List.pairwise_cons.2 ⟨h1, h2⟩
    · rename_i hk _
      refine List.pairwise_cons.2 ⟨fun y hy => ?_, List.pairwise_cons.2 ⟨h1, h2⟩⟩
      rcases List.mem_cons.1 hy with rfl | hy
      · assumption
      · exact Nat.lt_trans ‹_› (h1 y hy)
    · refine List.pairwise_cons.2 ⟨fun y hy => ?_, ih h2⟩
      rcases cset_mem t k x y hy with rfl | hy
      · simp only; omega
      · exact h1 y hy

theorem sset_mem [DecidableEq α] (d : α) (m : Sparse α) (k : Nat) (x : α) :
    ∀ c ∈ sset d m k x, (c = (k, x) ∧ x ≠ d) ∨ c ∈ m := by
  intro c hc
  simp only [sset] at hc
  split at hc
  · exact .inr (List.mem_of_mem_filter hc)
  · rcases cset_mem m k x c hc with h | h
    · exact .inl ⟨h, ‹_›⟩
    · exact .inr h

theorem sset_rising [DecidableEq α] (d : α) (m : Sparse α) (k : Nat) (x : α) (h : Rising m) : Rising (sset d m k x) := by
  simp only [sset]
  split
  · exact List.Pairwise.sublist List.filter_sublist h
  · exact cset_rising m k x h

theorem sget_cset (d : α) (m : Sparse α) (k j : Nat) (x : α) : sget d (cset m k x) j = if k = j then x else sget d m j := by
  induction m with
  | nil => simp [cset, sget]
  | cons e t ih =>
    obtain ⟨a, y⟩ := e
    simp only [cset]
    by_cases hk : a = k
    · subst hk; by_cases hj : a = j <;> simp [sget, hj]
    · by_cases hlt : k < a
      · by_cases hj : k = j
        · subst hj; simp [hk, hlt, sget]
        · simp [hk, hlt, sget, hj]
      · by_cases hj : a = j
        · subst hj; simp [hk, hlt, sget, Ne.symm hk]
        · simp [hk, hlt, sget, hj, ih]

theorem sget_filter (d : α) (m : Sparse α) (k j : Nat) : sget d (m.filter fun c => c.1 != k) j = if k = j then d else sget d m j := by
  induction m with
  | nil => simp [sget]
  | cons e t ih =>
    obtain ⟨a, y⟩ := e
    by_cases hk : a = k
    · subst hk
      by_cases hj : a = j
      · subst hj; simpa using ih
      · simpa [sget, hj] using ih
    · by_cases hj : a = j
      · subst hj; simp [hk, sget, Ne.symm hk]
      · simp [hk, sget, hj, ih]

/-- A value read after a value was set, whatever the map. -/
@[simp] theorem sget_sset [DecidableEq α] (d : α) (m : Sparse α) (k j : Nat) (x : α) :
    sget d (sset d m k x) j = if k = j then x else sget d m j := by
  simp only [sset]
  split
  · rename_i h; subst h; exact sget_filter x m k j
  · exact sget_cset d m k j x

/-! Memory. -/

/-- The canonical form, as a statement about the list. -/
theorem Memory.wf_iff (m : Cells) : Memory.wf m = true ↔ (∀ c ∈ m, c.2 ≠ memDefault) ∧ Rising m := by
  simp [Memory.wf, Rising, List.pairwise_map]

theorem Memory.wf_nil : Memory.wf [] = true := by decide

/-- A write of one byte keeps the canonical form. -/
theorem Memory.wf_sset (m : Cells) (k : Nat) (b : Byte) (h : Memory.wf m = true) :
    Memory.wf (sset memDefault m k b) = true := by
  rw [Memory.wf_iff] at h ⊢
  refine ⟨fun c hc => ?_, sset_rising _ _ _ _ h.2⟩
  rcases sset_mem memDefault m k b c hc with ⟨rfl, hb⟩ | hc
  · exact hb
  · exact h.1 c hc

theorem Memory.wf_filter (m : Cells) (p : Nat × Byte → Bool) (h : Memory.wf m = true) : Memory.wf (m.filter p) = true := by
  rw [Memory.wf_iff] at h ⊢
  exact ⟨fun c hc => h.1 c (List.mem_of_mem_filter hc), h.2.sublist List.filter_sublist⟩

theorem State.wf_wrByte (s : State) (pa : Nat) (b : Byte) (h : Memory.wf s.mem = true) :
    Memory.wf (s.wrByte pa b).mem = true := Memory.wf_sset _ _ _ h

theorem State.wf_wrBytes (s : State) (pa : Nat) (bs : List Byte) (h : Memory.wf s.mem = true) :
    Memory.wf (s.wrBytes pa bs).mem = true := by
  induction bs generalizing s pa with
  | nil => exact h
  | cons b t ih => exact ih _ _ (s.wf_wrByte pa b h)

/-- One byte read after one byte was written. -/
@[simp] theorem State.rd_wrByte (s : State) (pa q : Nat) (b : Byte) : (s.wrByte pa b).rd q = if pa = q then b else s.rd q :=
  sget_sset _ _ _ _ _

/-- A byte read after bytes were written: the byte written there, if any was. -/
theorem State.rd_wrBytes (s : State) (pa q : Nat) (bs : List Byte) :
    (s.wrBytes pa bs).rd q = if pa ≤ q ∧ q < pa + bs.length then bs.getD (q - pa) 0 else s.rd q := by
  induction bs generalizing s pa with
  | nil => rw [State.wrBytes, if_neg (by simp)]
  | cons b t ih =>
    rw [State.wrBytes, ih, s.rd_wrByte]
    by_cases h : pa = q
    · subst h; simp
    · by_cases hq : pa + 1 ≤ q ∧ q < pa + 1 + t.length
      · have h1 : pa ≤ q ∧ q < pa + (b :: t).length := by simp; omega
        have h2 : q - pa = (q - (pa + 1)) + 1 := by omega
        rw [if_pos hq, if_pos h1, h2, List.getD_cons_succ]
      · have h1 : ¬(pa ≤ q ∧ q < pa + (b :: t).length) := by simp only [List.length_cons]; omega
        rw [if_neg hq, if_neg h, if_neg h1]

/-- Bytes below or above those written read as before. -/
theorem State.rd_wrBytes_out (s : State) (pa q : Nat) (bs : List Byte) (hq : q < pa ∨ pa + bs.length ≤ q) :
    (s.wrBytes pa bs).rd q = s.rd q := by
  rw [s.rd_wrBytes, if_neg (by omega)]

end Sys2Proof.Machine
end

