-- ==== Sys2Proof/Laws/Memory.lean ====
section
/-! SUPPORT. Every operation that writes memory keeps its canonical form. -/

namespace Sys2Proof.Machine

/-- The memory of a state has its canonical form. -/
abbrev State.Formed (s : State) : Prop := Memory.wf s.mem = true

theorem State.formed_of_eq {s t : State} (h : t.mem = s.mem) (hs : s.Formed) : t.Formed := by rw [State.Formed, h]; exact hs

/-- A fold of an operation that keeps the form keeps it. -/
theorem formed_foldl {α : Type} (f : State → α → State) (hf : ∀ s x, s.Formed → (f s x).Formed) (l : List α) (s : State) (h : s.Formed) :
    (l.foldl f s).Formed := by
  induction l generalizing s with
  | nil => exact h
  | cons x t ih => exact ih _ (hf _ _ h)

theorem State.devWrite_formed (s : State) (line : Nat) (bytes : Cells) (h : s.Formed) : (s.devWrite line bytes).Formed := by
  unfold State.devWrite
  split
  · exact h
  · split
    · exact h
    · exact formed_foldl (fun s b => s.wrByte (128 * line + b.1) b.2) (fun s x h => s.wf_wrByte _ _ h) bytes s h

theorem State.devWriteBytes_formed (s : State) (pa : Nat) (bs : List Byte) (h : s.Formed) : (s.devWriteBytes pa bs).Formed :=
  formed_foldl _ (fun s _ h => s.devWrite_formed _ _ h) _ s h

theorem State.flushHost_formed (s : State) (keep : Nat → Bool) (h : s.Formed) : (s.flushHost keep).Formed :=
  formed_foldl _ (fun _ _ h => formed_foldl _ (fun s _ h => s.wf_wrByte _ _ h) _ _ h) _ _ h

theorem State.imageWrite_formed (s : State) (space va : Nat) (bs : List Byte) (h : s.Formed) : (s.imageWrite space va bs).Formed := by
  unfold State.imageWrite
  split
  · exact s.devWriteBytes_formed _ _ h
  · exact h

theorem State.ringWrite_formed (s : State) (r : Ring) (kind : Nat) (st : Word) (tag : DWord) (result : List Byte) (h : s.Formed) :
    (s.ringWrite r kind st tag result).1.Formed := s.wf_wrBytes _ _ h

theorem State.postEvent_formed (s : State) (session : Nat) (tag : DWord) (result : List Byte) (h : s.Formed) :
    (s.postEvent session tag result).Formed := by
  have hr : ∀ r, Memory.wf (s.ringWrite r 2 0 tag result).1.mem = true := fun r => s.ringWrite_formed r 2 0 tag result h
  generalize hm : s.ringWrite = w at hr
  simp only [State.Formed, State.postEvent, hm] at h ⊢
  split
  · exact h
  · split
    · split
      · exact h
      · exact hr _
    · exact h
    · exact h

theorem State.sendRecord_formed (s : State) (grid : Option Nat) (r : FaultRecord) (h : s.Formed) : (s.sendRecord grid r).Formed :=
  State.postEvent_formed _ _ _ _ h

theorem State.haltWave_formed (s : State) (id : WaveId) (w : Wave) (k : Nat) (second : Bool) (r : FaultRecord) (h : s.Formed) :
    (s.haltWave id w k second r).Formed := State.sendRecord_formed _ _ _ h

theorem State.takeTrap_formed (s : State) (id : WaveId) (t : Trap) (h : s.Formed) : (s.takeTrap id t).Formed := by
  unfold State.takeTrap
  split
  · exact h
  · dsimp only
    split
    · exact State.haltWave_formed _ _ _ _ _ _ h
    · exact State.imageWrite_formed _ _ _ _ h

theorem State.takePending_formed (s : State) (id : WaveId) (h : s.Formed) : (s.takePending id).Formed := by
  unfold State.takePending
  repeat' split
  all_goals first | exact h | exact State.takeTrap_formed _ _ _ h

theorem State.endHandler_formed (s : State) (id : WaveId) (pc : DWord) (h : s.Formed) : (s.endHandler id pc).Formed := by
  unfold State.endHandler
  split
  · exact h
  · dsimp only
    split
    · exact h
    · exact State.takePending_formed _ _ (State.formed_of_eq rfl h)

theorem State.recall_formed (s : State) (cid : CoreId) (line : Nat) (h : s.Formed) : (s.recall cid line).Formed := by
  unfold State.recall
  split <;> exact h

theorem State.applyUpdate_mem (s : State) (cid : CoreId) (home : Nat) : (s.applyUpdate cid home).mem = s.mem := by
  unfold State.applyUpdate State.pruneFloors State.recall State.settleL2
  split
  · rfl
  · simp only
    split
    · split <;> rfl
    · rfl

theorem State.homeRecall_formed (s : State) (cid : CoreId) (line : Nat) (h : s.Formed) : (s.homeRecall cid line).Formed := by
  unfold State.homeRecall
  split
  · exact State.recall_formed _ _ _ (formed_foldl _ (fun s _ h => State.formed_of_eq (s.applyUpdate_mem _ _) h) _ _ h)
  · exact h

theorem State.recallAll_formed (s : State) (line : Nat) (h : s.Formed) : (s.recallAll line).Formed :=
  State.formed_of_eq rfl (formed_foldl _ (fun s _ h => s.homeRecall_formed _ _ h) _ _ h)

theorem State.recallWhere_formed (s : State) (hit : Nat → Bool) (h : s.Formed) : (s.recallWhere hit).Formed :=
  formed_foldl _ (fun s _ h => s.recallAll_formed _ h) _ _ h

theorem State.hostWrite_formed (s : State) (bus : Nat) (bs : List Byte) (h : s.Formed) : (s.hostWrite bus bs).Formed :=
  State.flushHost_formed _ _ (s.devWriteBytes_formed _ _ h)

theorem State.zeroRange_formed (s : State) (pa n : Nat) (h : s.Formed) : (s.zeroRange pa n).Formed :=
  Memory.wf_filter _ _ (s.recallWhere_formed _ h)

theorem State.movePage_formed (s : State) (old new n : Nat) (h : s.Formed) : (s.movePage old new n).Formed := by
  have hm : ∀ (l m : Cells), Memory.wf m = true → Memory.wf (l.foldl (fun m c => sset memDefault m (c.1 - old + new) c.2) m) = true := by
    intro l
    induction l with
    | nil => exact fun _ hm => hm
    | cons c t ih => exact fun m hm => ih _ (Memory.wf_sset _ _ _ hm)
  exact hm _ _ (s.zeroRange_formed _ _ h)

theorem State.reset_formed : State.reset.Formed := rfl

end Sys2Proof.Machine
end

