-- ==== Sys2Proof/Laws/Bins.lean ====
section
/-! SUPPORT. What the appends of a BINA do (14 R242; 15 R252), said once. -/

namespace Sys2Proof.Machine

theorem mem_insertBy {α : Type} (le : α → α → Bool) (x y : α) (l : List α) : y ∈ insertBy le x l ↔ y = x ∨ y ∈ l := by
  induction l with
  | nil => simp [insertBy]
  | cons z t ih => unfold insertBy; split <;> simp [ih, or_left_comm]

/-- A list in order has the elements that it had. -/
theorem mem_sortBy {α : Type} (le : α → α → Bool) (y : α) (l : List α) : y ∈ sortBy le l ↔ y ∈ l := by
  induction l with
  | nil => simp [sortBy]
  | cons x t ih => exact (mem_insertBy le x y (sortBy le t)).trans (by simp [ih])

theorem mem_freeOrder (fresh key : Nat) (a : LaneAcc) (ls : List LaneAcc) : a ∈ freeOrder fresh key ls ↔ a ∈ ls := mem_sortBy _ a ls

/-- The lane that comes next is one of those left, and makes its append; none does where every one waits for the host. -/
theorem State.nextAppend_some {s t : State} {o : Op} {ty : Ty} {op : AOp} {k q : BinWalk} {accs : List LaneAcc} {a : LaneAcc}
    (h : s.nextAppend o ty op k accs = some (a, t, q)) : a ∈ accs ∧ s.appendLane o ty op k a = some (t, q) := by
  obtain ⟨b, hb, hr⟩ := List.exists_of_findSome?_eq_some h
  obtain ⟨r, hr, he⟩ := Option.map_eq_some_iff.mp hr
  cases he
  exact ⟨(mem_freeOrder _ _ _ _).mp hb, hr⟩

theorem State.nextAppend_none {s : State} {o : Op} {ty : Ty} {op : AOp} {k : BinWalk} {accs : List LaneAcc} :
    s.nextAppend o ty op k accs = none ↔ ∀ a ∈ accs, s.appendLane o ty op k a = none := by
  simp [State.nextAppend, List.findSome?_eq_none_iff, mem_freeOrder]

theorem State.engineRecall_formed (s : State) (line : Nat) (h : s.Formed) : (s.engineRecall line).Formed :=
  formed_foldl _ (fun s c h => s.homeRecall_formed c line h) _ _ (State.formed_of_eq (s := s) rfl h)

theorem State.own_formed (s : State) (op line : Nat) (h : s.Formed) : (s.own op line).Formed :=
  State.formed_of_eq (s := s.engineRecall line) rfl (s.engineRecall_formed line h)

/-- An append keeps the form of memory. -/
theorem State.appendLane_formed {s t : State} {o : Op} {ty : Ty} {op : AOp} {k q : BinWalk} {a : LaneAcc}
    (h : s.appendLane o ty op k a = some (t, q)) (hs : s.Formed) : t.Formed := by
  have hw : ∀ (u : State) (l pa : Nat) (bs : List Byte), u.Formed → ((u.own o.id l).devWriteBytes pa bs).Formed :=
    fun u l pa bs hu => State.devWriteBytes_formed _ _ _ (u.own_formed _ _ hu)
  simp only [State.appendLane] at h
  repeat' split at h
  all_goals simp only [Option.some.injEq, Prod.mk.injEq, reduceCtorEq] at h
  all_goals obtain ⟨rfl, -⟩ := h
  all_goals with_reducible first | exact hs | exact hw _ _ _ _ hs | exact hw _ _ _ _ (hw _ _ _ _ hs)

end Sys2Proof.Machine
end

