-- ==== Sys2Proof/Laws/Caches.lean ====
section
/-! SUPPORT. What the register cache and the store buffers' helpers do (05 R112, R113; 08 R163), said once: memory keeps its form when lines
leave a cache, and a byte that is taken out of a buffer is one that the taker names. -/

namespace Sys2Proof.Machine

theorem State.imageReg_formed (s : State) (id : WaveId) (w : Wave) (r : RReg) (lane : Nat) (h : s.Formed) : (s.imageReg id w r lane).Formed := by
  cases r <;> first | exact s.imageWrite_formed _ _ _ h | exact h

theorem State.evictLine_formed (s : State) (id : WaveId) (line : Nat) (h : s.Formed) : (s.evictLine id line).Formed := by
  unfold State.evictLine
  split
  · exact h
  · refine State.formed_of_eq (s := ite _ _ _) rfl ?_
    split
    · exact h
    · exact formed_foldl _ (fun s r hs => s.imageReg_formed id _ _ _ hs) _ _ h

theorem State.evictWave_formed (s : State) (id : WaveId) (h : s.Formed) : (s.evictWave id).Formed :=
  formed_foldl _ (fun s l hs => s.evictLine_formed id l hs) _ _ h

theorem State.emptyCaches_formed (s : State) (on : CoreId → Bool) (h : s.Formed) : (s.emptyCaches on).Formed :=
  formed_foldl _ (fun s id hs => s.evictWave_formed id hs) _ _ h

theorem State.evictLines_formed (s : State) (cid : CoreId) (n : Nat) (h : s.Formed) : (s.evictLines cid n).Formed := by
  induction n generalizing s with
  | zero => exact h
  | succ n ih =>
    unfold State.evictLines
    simp only
    split
    · exact h
    · split
      · exact ih _ (State.formed_of_eq rfl (s.evictLine_formed _ _ h))
      · exact h

theorem State.makeRoom_formed (s : State) (cid : CoreId) (h : s.Formed) : (s.makeRoom cid).Formed := s.evictLines_formed cid _ h

theorem State.regroup_formed (s : State) (id : WaveId) (f : Wave → Wave) (h : s.Formed) : (s.regroup id f).Formed := by
  unfold State.regroup
  split
  · exact h
  · simp only
    split <;> exact State.formed_of_eq rfl h

/-- What stays in a buffer is what was there and is not taken. -/
theorem mem_bufTake (p : Delta → Nat → Bool) (buf : List Delta) (d : Delta) :
    d ∈ bufTake p buf ↔ d.bytes ≠ [] ∧ ∃ x ∈ buf, d = { x with bytes := x.bytes.filter fun b => !p x b.1 } := by
  simp only [bufTake, List.mem_filter, List.mem_map, Bool.not_eq_true', List.isEmpty_eq_false_iff]
  constructor
  · rintro ⟨⟨x, hx, rfl⟩, hd⟩; exact ⟨hd, x, hx, rfl⟩
  · rintro ⟨hd, x, hx, rfl⟩; exact ⟨⟨x, hx, rfl⟩, hd⟩

/-- Bytes without others hold what the first hold and the others do not. -/
theorem Watch.without_holds (w x : Watch) (space : Nat) (d : Delta) (off : Nat) :
    (w.without x).holds space d off = (w.holds space d off && !(if d.marked then x.vas.contains (d.va, off) else x.pas.contains (d.pa, off))) := by
  simp only [Watch.holds, Watch.without]
  split <;> apply Bool.eq_iff_iff.mpr <;> simp [and_assoc]

end Sys2Proof.Machine
end

