-- ==== Sys2Proof/Laws/Calls.lean ====
section
/-! SUPPORT. How the frame of a call is served (18 R278, R280), said once. -/

namespace Sys2Proof.Machine

/-- A frame that is next in its session is served by its call, on the state in which the session has taken its number. -/
theorem State.serve_next (s : State) (c : Caller) (h : FrameHdr) (x : Session) (code : Nat) (run : State → Session → Reply → Option State)
    (h1 : s.hdrOf c = some h) (h2 : s.wasServed c = false) (h3 : hdrRefused c h = none) (h4 : h.code.toNat = code) (h5 : s.fwWaits = false ∨ code = 0x24)
    (h6 : s.rewritten c = false) (h7 : tget s.sessions h.session.toNat = some x) (h8 : h.session = 0 ↔ 0x20 ≤ code ∧ code < 0x40)
    (h9 : h.seq = x.fseq + 1) :
    s.serve c code run = s.afterServe c (run { s with sessions := tset s.sessions h.session.toNat { x with fseq := h.seq, begun := true, last := none } } x
      { session := h.session.toNat, caller := some c, tag := h.tag, seq := h.seq, status := 0, result := [] }) := by
  have hz : (h.session.toNat == 0) = decide (0x20 ≤ code ∧ code < 0x40) := by
    rw [Bool.eq_iff_iff]
    simp only [beq_iff_eq, decide_eq_true_eq, ← h8]
    exact ⟨fun h => BitVec.eq_of_toNat_eq h, fun h => by simp [h]⟩
  have hl : ¬(h.seq = x.fseq ∧ x.begun = true) := by
    rintro ⟨p, -⟩
    rw [h9] at p
    have : (x.fseq + 1).toNat = x.fseq.toNat := by rw [p]
    rw [BitVec.toNat_add] at this
    have := x.fseq.isLt
    simp at *
  have hw : ¬(h.code.toNat ≠ code ∨ (s.fwWaits = true ∧ code ≠ 0x24)) := by
    rintro (p | ⟨p, q⟩)
    · exact p h4
    · exact h5.elim (fun r => by simp [r] at p) q
  simp only [State.serve, h1, h2, State.serveFrame, hw, State.mixRefused, h3, h6, h7, hz, hl, Bool.false_and, Bool.false_eq_true, if_false, ne_eq,
    bne_self_eq_false]
  rw [if_neg (by simpa using h9)]

end Sys2Proof.Machine
end

