-- ==== Sys2Proof/Laws/Decode.lean ====
section
/-! SUPPORT. The fields of a word and the word of fields (04 R75). -/

namespace Sys2Proof

theorem extract_append_low {m n : Nat} (x : BitVec m) (y : BitVec n) (k l : Nat) (h : k + l ≤ n) :
    (x ++ y).extractLsb' k l = y.extractLsb' k l := by
  apply BitVec.eq_of_getLsbD_eq
  intro i hi
  simp only [BitVec.getLsbD_extractLsb', BitVec.getLsbD_append, hi, decide_true, Bool.true_and]
  rw [if_pos (by omega)]

theorem extract_append_high {m n : Nat} (x : BitVec m) (y : BitVec n) (k l : Nat) (h : n ≤ k) :
    (x ++ y).extractLsb' k l = x.extractLsb' (k - n) l := by
  apply BitVec.eq_of_getLsbD_eq
  intro i hi
  simp only [BitVec.getLsbD_extractLsb', BitVec.getLsbD_append, hi, decide_true, Bool.true_and]
  rw [if_neg (by omega)]
  congr 1
  omega

theorem extract_whole {n : Nat} (x : BitVec n) : x.extractLsb' 0 n = x := by simp

/-- The fields read from the word of fields are those fields. -/
@[simp] theorem Fields.ofWord_toWord (f : Fields) : Fields.ofWord f.toWord = f := by
  obtain ⟨op, gneg, gp, d, a, b, mods, imm, hres, ru, y, st⟩ := f
  simp only [Fields.ofWord, Fields.toWord, Fields.mk.injEq]
  refine ⟨?_, ?_, ?_, ?_, ?_, ?_, ?_, ?_, ?_, ?_, ?_, ?_⟩
  all_goals first
    | (repeat (first | rw [extract_append_low _ _ _ _ (by decide)] | rw [extract_append_high _ _ _ _ (by decide)])
       exact extract_whole _)
    | (repeat rw [BitVec.getLsbD_append]
       simp)

theorem ofBool_extract {n : Nat} (w : BitVec n) (k : Nat) : BitVec.ofBool (w.getLsbD k) = w.extractLsb' k 1 := by
  apply BitVec.eq_of_getLsbD_eq
  intro i hi
  have : i = 0 := by omega
  subst this; simp

theorem app_extract {n : Nat} (w : BitVec n) (k a b : Nat) : w.extractLsb' (k + b) a ++ w.extractLsb' k b = w.extractLsb' k (a + b) := by
  apply BitVec.eq_of_getLsbD_eq
  intro i hi
  simp only [BitVec.getLsbD_append, BitVec.getLsbD_extractLsb']
  by_cases h : i < b
  · simp [h, hi]
  · simp only [h, if_false, hi, decide_true, Bool.true_and, show i - b < a by omega]
    congr 1
    omega

/-- The word of the fields of a word is that word. -/
@[simp] theorem Fields.toWord_ofWord (w : IWord) : (Fields.ofWord w).toWord = w := by
  simp only [Fields.ofWord, Fields.toWord, ofBool_extract]
  have e : ∀ k a b, w.extractLsb' (k + b) a ++ w.extractLsb' k b = w.extractLsb' k (a + b) := app_extract w
  rw [e 85 10 1, e 82 11 3, e 70 14 12, e 58 26 12, e 46 38 12, e 32 50 14, e 12 64 20, e 8 84 4, e 5 88 3, e 4 91 1, e 0 92 4]
  simp

end Sys2Proof
end

