-- ==== Sys2Proof/Laws/Issue.lean ====
section
/-! SUPPORT. What one issue answers (04 R90), said once. -/

namespace Sys2Proof.Machine

theorem find_none_of_any {α : Type} (l : List α) (p q : α → Bool) (h : l.any (fun x => p x || q x) = false) :
    l.find? p = none ∧ l.find? q = none := by
  induction l with
  | nil => simp
  | cons x t ih => simp only [List.any_cons, Bool.or_eq_false_iff] at h; simp [List.find?, h.1.1, h.1.2, ih h.2]

/-- An instruction that clears its checks answers what its meaning concludes. -/
theorem issue_of_clears {i : Instr} {s : State} {c : Ctx} (body : Ctx → State → Eff) (h : s.clears i = some c) :
    issue i s body = .next ((body c (s.beginIssue c.id)).conclude i c s) := by
  unfold State.clears at h
  cases hi : s.issuer with
  | none => simp [hi] at h
  | some c0 =>
    simp only [hi] at h
    split at h
    · cases h
    · rename_i hc
      simp only [Bool.not_eq_true, Bool.or_eq_false_iff, Option.isSome_eq_false_iff, Option.isNone_iff_eq_none] at hc
      obtain ⟨⟨⟨h1, h2⟩, h3⟩, h4⟩ := hc
      obtain ⟨h5, h6⟩ := find_none_of_any _ _ _ h3
      cases h
      have h7 : (if (c0.guard i).grid.rec_.check = true then stallFault i (c0.guard i) s else none) = none := by
        split
        · rename_i hk; simpa [hk] using h4
        · rfl
      simp only [issue, hi, h1, h2, h5, h6, h7, Bool.false_eq_true, if_false]

/-- The writes of results, and so a path's view of them, leave a wave on its core. -/
@[simp] theorem Wave.wrReg_core (w : Wave) (r : RReg) (lane : Nat) (x : Word) : (w.wrReg r lane x).core = w.core := by
  cases r
  case p => simp only [Wave.wrReg]; split <;> rfl
  all_goals rfl
@[simp] theorem Wave.land1_core (w : Wave) (f : FixedWrite) : (w.land1 f).core = w.core := by
  have h : ∀ (l : List (Nat × Word)) (r : RReg) (w : Wave), (l.foldl (fun w v => w.wrReg r v.1 v.2) w).core = w.core := by
    intro l r
    induction l with
    | nil => exact fun _ => rfl
    | cons v t ih => exact fun w => (ih _).trans (by simp)
  unfold Wave.land1
  split
  · rfl
  · exact h ..
@[simp] theorem Wave.view_core (w : Wave) (now fresh : Nat) : (w.view now fresh).core = w.core := by
  unfold Wave.view
  split
  · rfl
  · generalize w.lats = l
    suffices h : ∀ (k : Nat) (u : Wave), u.core = w.core → (l.foldl _ (u, k)).1.core = w.core from h 0 w rfl
    induction l with
    | nil => exact fun _ _ h => h
    | cons f t ih => intro k u h; exact ih _ _ (by simpa using h)

/-- The clock of the context of an issue is that of its wave's die. -/
theorem now_of_clears {i : Instr} {s : State} {c : Ctx} (h : s.clears i = some c) : c.now = s.clk c.w.core.die := by
  simp only [State.clears] at h
  cases hi : s.issuer with
  | none => simp [hi] at h
  | some c0 =>
    simp only [hi] at h
    split at h
    · cases h
    · cases h
      show c0.now = s.clk c0.w.core.die
      simp only [State.issuer] at hi
      repeat' split at hi
      all_goals try cases hi
      all_goals simp

/-- A guard that selects a lane, and one that selects none. -/
theorem any_eq_true {c : Ctx} (h : c.sel ≠ 0) : c.any = true := by simpa [Ctx.any] using h
theorem any_eq_false {c : Ctx} (h : c.sel = 0) : c.any = false := by simp [Ctx.any, h]

@[simp] theorem conclude_ok (i : Instr) (c : Ctx) (s t : State) : Eff.conclude i c s (.ok t) = t.issued i c (nextPc c.pc) := rfl
@[simp] theorem conclude_goto (i : Instr) (c : Ctx) (s t : State) (pc : PC) : Eff.conclude i c s (.goto pc t) = t.issued i c pc := rfl
@[simp] theorem conclude_raw (i : Instr) (c : Ctx) (s t : State) : Eff.conclude i c s (.raw t) = t := rfl
@[simp] theorem conclude_trap (i : Instr) (c : Ctx) (s : State) (cause : Cause) (sub : Nat) (fld : Fld) (mask : Lanes) (addr : DWord) :
    Eff.conclude i c s (.trap cause sub fld mask addr) = s.takeTrap c.id { c.exact cause sub fld mask addr with win := winOf i } := rfl

/-- Where a path may issue it, an instruction answers a next state. -/
theorem issue_answers_next (i : Instr) (s : State) (c : Ctx) (body : Ctx → State → Eff) (h : s.issuer = some c) :
    ∃ t, issue i s body = .next t := by
  simp only [issue, h]
  repeat' split
  all_goals exact ⟨_, rfl⟩

end Sys2Proof.Machine
end

