-- ==== Sys2Proof/Laws/Traps.lean ====
section
/-! SUPPORT. What taking a trap does (17 R256, R260), said once. -/

namespace Sys2Proof.Machine

/-- A wave read after a wave was set. -/
@[simp] theorem State.wave_setWave (s : State) (id j : WaveId) (x : Wave) :
    (s.setWave id x).wave j = if id = j then some x else s.wave j := by
  simp [State.wave, State.setWave]

/-- A wave changed is that wave set. -/
theorem State.modWave_eq_setWave {s : State} {id : WaveId} {w : Wave} (h : s.wave id = some w) (f : Wave → Wave) :
    s.modWave id f = s.setWave id (f w) := by
  simp [State.modWave, h]

/-- A device-level write changes what holds its bytes alone: memory, the host lines at D0, the L2s and the queues of the cores. -/
theorem State.devWrite_eq (s : State) (line : Nat) (bytes : Cells) :
    s.devWrite line bytes = { s with mem := (s.devWrite line bytes).mem, d0held := (s.devWrite line bytes).d0held
                                     l2 := (s.devWrite line bytes).l2, cores := (s.devWrite line bytes).cores
                                     badLines := (s.devWrite line bytes).badLines, seq := (s.devWrite line bytes).seq } := by
  have h : ∀ (l : Cells) (t : State), l.foldl (fun s b => s.wrByte (128 * line + b.1) b.2) t =
      { t with mem := (l.foldl (fun (s : State) b => s.wrByte (128 * line + b.1) b.2) t).mem } := by
    intro l
    induction l with
    | nil => intro t; rfl
    | cons b r ih => intro t; rw [List.foldl_cons, ih]; rfl
  unfold State.devWrite
  split
  · rfl
  · split
    · rfl
    · rw [h]; rfl

/-- A write into a context image changes what holds its bytes alone. -/
theorem State.imageWrite_eq (s : State) (space va : Nat) (bs : List Byte) :
    s.imageWrite space va bs = { s with mem := (s.imageWrite space va bs).mem, d0held := (s.imageWrite space va bs).d0held
                                        l2 := (s.imageWrite space va bs).l2, cores := (s.imageWrite space va bs).cores
                                        badLines := (s.imageWrite space va bs).badLines, seq := (s.imageWrite space va bs).seq } := by
  have h : ∀ (f : Nat → Cells) (l : List Nat) (t : State), l.foldl (fun s x => s.devWrite x (f x)) t =
      (fun (u : State) => { t with mem := u.mem, d0held := u.d0held, l2 := u.l2, cores := u.cores, badLines := u.badLines, seq := u.seq })
        (l.foldl (fun s x => s.devWrite x (f x)) t) := by
    intro f l
    induction l with
    | nil => intro t; rfl
    | cons x r ih => intro t; rw [List.foldl_cons, ih, t.devWrite_eq]
  unfold State.imageWrite
  split
  · exact h _ _ _
  · rfl

/-- R256: a trap outside handler mode. -/
theorem State.takeTrap_enters (s : State) (id : WaveId) (t : Trap) (w : Wave) (h : s.wave id = some w) (hm : w.landAll.inHandler = false) :
    ∃ x, s.takeTrap id t = (s.setWave id x).imageWrite (s.spaceOf id.grid) (x.image + 0x40) t.record.toBytes ∧ x.mode = .handler ∧
      x.record = t.record ∧ x.trapcause = trapCauseWord t.record ∧ x.trappc = t.trappc ∧ x.trapaddr = t.record.addr := by
  simp only [State.takeTrap, h, hm]
  exact ⟨_, rfl, rfl, rfl, rfl, rfl, rfl⟩

/-- R260: a trap in handler mode halts its wave. -/
theorem State.takeTrap_halts (s : State) (id : WaveId) (t : Trap) (w : Wave) (h : s.wave id = some w) (hm : w.landAll.inHandler = true) :
    ∃ r, s.takeTrap id t = s.haltWave id w.landAll t.split t.second r ∧ r.type = 0x10 := by
  simp only [State.takeTrap, h, hm, if_true]
  exact ⟨_, rfl, rfl⟩

end Sys2Proof.Machine
end

