-- ==== Sys2Proof/Tests/Slice0.lean ====
section
/-! SUPPORT. Tests: words that the spec works out, terms that `Instr.wf` refuses, states that meet the hypotheses of the statements, and a
few results worked out by hand from the rules. -/

namespace Sys2Proof.Tests

open Sys2Proof Sys2Proof.Machine

set_option Elab.async false

/-! Words. -/

/-- Guard pt, no stall, no yield. -/
def hp : Hdr := ⟨⟨false, 7⟩, 0, false, 0⟩
/-- Guard !pt: no lane. -/
def hn : Hdr := ⟨⟨true, 7⟩, 0, false, 0⟩
/-- Guard p0. -/
def hq : Hdr := ⟨⟨false, 0⟩, 0, false, 0⟩
/-- Guard pt with a stall count. -/
def hst (n : BitVec 4) : Hdr := ⟨⟨false, 7⟩, n, false, 0⟩

/-- 06, example of OPEN: open w1, v2:v3, s4, p2. -/
theorem test_word_open : decode 0x601E00400901182200000000#96 = .ok (.open hp 1 (.v 2) 4 2 false 2 24) := by decide
/-- 06, example of REOPEN.TRAP: reopen.trap s20. -/
theorem test_word_reopen_trap : decode 0x609C00105000180100000000#96 = .ok (.reopenTrap hp 20 24) := by decide
/-- 20, example of LDW: ldw v1, w2+8, with a stall count of 8. -/
theorem test_word_ldw : decode 0x611C00600B00002800008008#96 = .ok (.ldw (hst 8) 1 2 (.i 8) .f32 2 .nochk) := by decide
/-- 20, example of STW. -/
theorem test_word_stw : decode 0x615C00200B00002800040000#96 = .ok (.stw hp 0 2 (.i 64) .f32 2 .nochk) := by decide
/-- 08, example of ACQUIRE: acquire.device s13. -/
theorem test_word_acquire : decode 0x809D03400000000300000000#96 = .ok (.acquire hp 13 3) := by decide
/-- 19, example of ATOM: ?p2 atom.or.n32.device v12, w2+0, v11. -/
theorem test_word_atom : decode 0x80C803200802FB4100000000#96 =
    .ok (.atom ⟨⟨false, 2⟩, 0, false, 0⟩ 12 2 (.const 0) 11 .n32 .or 3 7) := by decide
/-- 21, example of RED: red.add.f32.device w3+0, v5. -/
theorem test_word_red : decode 0x811C00200C01430800000000#96 = .ok (.red hp 3 (.const 0) 5 .f32 .add 3) := by decide
/-- 21, example of LOP3: exclusive or of three. -/
theorem test_word_lop3 : decode 0x129C00C00400800125804000#96 = .ok (.lop3 hp 3 (.v 1) (.v 2) (.v 4) .n32 0x96) := by decide
/-- 21, example of MOVI. -/
theorem test_word_movi : decode 0x161C01700304000000E0B004#96 = .ok (.movi (hst 4) 5 0x01000E0B) := by decide
/-- 12, the MMA of the example. -/
theorem test_word_mma : decode 0x910280806000008800000000#96 = .ok (.mma ⟨⟨false, 0⟩, 0, false, 0⟩ 2 24 .plus true 2) := by decide

/-! Terms without an encoding: one for each check of `Instr.wf`. -/

/-- Control: a displacement slot above 9, a JOIN slot above 9, odd pairs, operands of a kind the entry does not allow. -/
theorem test_wf_refuses_control : ([.bra hp 10, .braDual hp 10 0 0, .braDual hp 0 0 10, .braSplit hp 0 0 12, .brx hp 3, .ret hp 5, .call hp 3 (.i 0),
    .call hp 2 (.v 0), .call hp 2 (.s 5), .call hp 2 (.i 11), .sleep hp (.v 0), .vote hp .ballot (.p 1) 0, .vote hp .any (.s 1) 0] : List Instr).all
      (fun i => !i.wf) = true := by decide

/-- Integer and logic: types, pairs, kinds and ranges. -/
theorem test_wf_refuses_integer : ([.iadd hp 0 (.v 0) (.v 1) .f32 false, .isub hp 1 (.v 0) (.v 2) .i64 false, .imul hp 0 (.i 0) (.v 1) .i32 false,
    .iadd hp 0 (.v 1) (.v 2) .n64 false, .iadd hp 0 (.v 0) (.v 3) .n64 false, .imulhi hp 0 (.v 0) (.v 1) .i16, .imin hp 0 (.p 0) (.v 1) .i32,
    .imax hp 0 (.v 0) (.p 1) .i32, .iabs hp 0 (.v 1) .n32 false, .imad hp 0 (.v 0) (.i 1) (.v 2) .i32 false, .imad hp 0 (.v 0) (.v 2) (.v 4) .i8 false,
    .isad hp 0 (.v 0) (.v 1) (.v 2) .i64 false, .idot4 hp 0 (.v 0) (.v 1) (.v 2) .n64 false 0, .lop3 hp 0 (.v 0) (.v 1) (.v 2) .i32 0,
    .lop3 hp 0 (.v 0) (.v 2) (.v 5) .n64 0] : List Instr).all (fun i => !i.wf) = true := by decide
/-- Shifts, fields, counts, permutation, moves. -/
theorem test_wf_refuses_bits : ([.shl hp 0 (.v 0) (.v 1) .i32, .shr hp 0 (.i 0) (.v 1) .n32, .shra hp 0 (.v 0) (.v 1) .n32, .rot hp 1 (.v 0) (.v 2) .n64 false,
    .shf hp 0 (.v 0) (.v 1) (.i 2) false, .bfe hp 0 (.v 0) (.i 65536) .i32, .bfi hp 0 (.v 0) (.v 1) .i32, .bfi hp 0 (.v 0) (.i 70000) .n32,
    .popc hp 0 (.i 0) .n32, .clz hp 0 (.v 1) .n64, .brev hp 1 (.v 2) .n64, .prmt hp 0 (.v 0) (.i 1) 0, .prmt hp 0 (.v 0) (.v 1) 0xA000,
    .lea hp 0 (.v 0) (.v 1) .n32 true 0, .lea hp 0 (.v 0) (.i 1) .n32 false 0, .mov hp 0 (.i 512) .n32, .mov hp 0 (.p 0) .n32,
    .sel hp 0 (.v 0) (.v 1) .i32 0 false] : List Instr).all (fun i => !i.wf) = true := by decide
/-- Lanes and predicates. -/
theorem test_wf_refuses_lanes : ([.shfl hp 0 1 (.v 1) .n64 .idx 0, .shfl hp 0 1 (.i 64) .n32 .up 0, .readlane hp 0 1 (.v 0) .n32, .readlane hp 0 1 (.i 64) .n32,
    .wred hp (.i 0) 0 .i32 .rn .add, .wred hp (.v 0) 0 .f32 .rn .xor, .wred hp (.v 0) 0 .i32 .rz .add, .wred hp (.v 0) 0 .i32 .rn .exch,
    .wscan hp 0 1 .i16 .rn .add false, .wscan hp 0 1 .f32 .rz .min false, .wscan hp 0 0 .i32 .rn .cas false, .setp hp 0 (.v 0) (.v 1) .i8 .eq,
    .setp hp 0 (.v 0) (.v 1) .i32 .nan, .setp hp 0 (.i 0) (.v 1) .i32 .eq] : List Instr).all (fun i => !i.wf) = true := by decide
/-- Floating point and conversion. -/
theorem test_wf_refuses_float : ([.fadd hp 0 (.i 0) (.v 1) .rn false false, .ffma hp 0 (.v 0) (.v 1) (.i 0) .rn false false false, .fmin hp 0 (.p 0) (.v 1),
    .frcp hp 0 (.i 0) .rn, .frsq hp 0 (.p 0), .fscale hp 0 (.v 0) (.p 1) .rn, .fclass hp 0 (.v 0) .f16, .fclass hp 0 (.v 1) .f64,
    .fdot2 hp 0 (.v 0) (.v 1) (.v 2) .f32 .rn false false false, .dadd hp 1 (.v 0) (.v 2) .rn false false, .dfma hp 0 (.v 0) (.v 2) (.v 5) .rn false false false,
    .hadd2 hp 0 (.v 0) (.v 1) .f32 .rn false false .add, .hadd2 hp 0 (.v 0) (.v 1) .f16 .rz false false .min, .hadd2 hp 0 (.v 0) (.i 1) .f16 .rn false false .add,
    .hmul2 hp 0 (.v 0) (.v 1) .e4m3 .rn false false, .hfma2 hp 0 (.v 0) (.v 1) (.i 2) .f16 .rn false false false, .cvt hp 0 (.v 0) .q4 .f32 .rn false,
    .cvt hp 0 (.v 0) .f32 .q4 .rn false, .cvt hp 1 (.v 0) .f64 .f32 .rn false, .cvt hp 0 (.v 0) .i32 .i16 .rz false, .cvt hp 0 (.v 0) .f32 .i32 .rn true,
    .qpack hp 0 4 (.v 1) .f32, .qpack hp 0 8 (.i 256) .f32, .qpack hp 0 8 (.v 1) .f16, .qunpack hp 2 (.v 0) (.v 1) .bf16,
    .qunpack hp 0 (.i 0) (.v 1) .f32] : List Instr).all (fun i => !i.wf) = true := by decide
/-- Windows and the pantry. -/
theorem test_wf_refuses_windows : ([.open hp 0 (.i 0) 0 0 false 0 0, .open hp 0 (.v 1) 0 0 false 0 0, .wquery hp 1 0 true, .ldw hp 0 0 (.i 128) .f32 2 .nochk,
    .ldw hp 0 0 (.s 0) .f32 2 .nochk, .ldw hp 0 0 (.i 0) .f32 5 .nochk, .ldw hp 0 0 (.i 0) .e4m3 0 .nochk, .ldw hp 2 0 (.i 0) .f32 4 .nochk,
    .ldw hp 0 0 (.i 0) .f32 2 (.chk 7), .ldw hp 0 0 (.i 0) .f32 2 (.sc 0), .ldw hp 0 0 (.i 0) .f32 4 (.sc 1), .stw hp 0 0 (.i 0) .f32 2 (.chk 1),
    .ldws hp 0 0 (.v 0) .f32 2 .nochk, .ldws hp 0 0 (.i 0) .f32 4 .nochk, .stws hp 0 0 (.i 0) .n64 1 .nochk, .ldl hp 1 (.v 0) 0 .n64 3, .stl hp 0 (.i 0) 0 .n32 2,
    .cstw hp 0 0 (.v 0) .n32 1, .cstw hp 0 0 (.i 128) .n32 1, .cstw hp 1 0 (.i 0) .n64 1, .cstw hp 0 0 (.i 0) .q4 1] : List Instr).all
      (fun i => !i.wf) = true := by decide
/-- Commit, atomics, barriers and waits. -/
theorem test_wf_refuses_sync : ([.commit hp 0 0 none, .commit hp 0 5 none, .commit hp 0 3 (some 2), .commit hp 0 1 (some 3), .abort hp 0 3, .acquire hp 0 0,
    .acquire hp 0 5, .atom hp 0 0 (.const 128) 0 .n32 .add 3 7, .atom hp 0 0 (.const 0) 2 .n64 .cas 3 7, .atom hp 1 0 (.const 0) 2 .n64 .add 3 7,
    .atom hp 0 0 (.const 0) 0 .n32 .add 5 7, .atom hp 0 0 (.const 0) 0 .f32 .and 3 7, .atom hp 0 0 (.const 0) 0 .f16 .add 3 7, .red hp 0 (.const 0) 0 .n32 .exch 3,
    .red hp 0 (.const 200) 0 .n32 .add 3, .red hp 0 (.const 0) 1 .f64 .add 3, .arrive hp 1 ⟨1, 0⟩ (.s 0), .arrive hp 0 ⟨0, 4⟩ (.s 0), .arrive hp 0 ⟨1, 16⟩ (.s 0),
    .arrive hp 0 ⟨2, 8⟩ (.s 0), .arrive hp 0 ⟨3, 4⟩ (.s 0), .barsync hp 0 ⟨1, 0⟩ (.i 0) 0, .barsync hp 0 ⟨1, 0⟩ (.i 36865) 0, .barsync hp 0 ⟨1, 0⟩ (.v 0) 0,
    .waitb hp 0 ⟨1, 0⟩ (.v 0) 0, .barq hp 1 ⟨1, 0⟩ .gen, .barqReset hp 0 ⟨0, 9⟩, .waitn hp 0 (.i 512) .cpy 0, .waitn hp 0 (.v 0) .cpy 0] : List Instr).all
      (fun i => !i.wf) = true := by decide
/-- Engines, matrix, launches. -/
theorem test_wf_refuses_engines : ([.cpy hp 0 1 none .mm 0, .cpy hp 0 0 (some ⟨0, 0⟩) .mm 0, .cpy hp 0 0 (some ⟨3, 0⟩) .mm 0, .cpy hp 0 0 (some ⟨1, 20⟩) .mm 0,
    .bina hp 0 2 0 .n32 .add, .bina hp 0 0 1 .n32 .add, .bina hp 0 0 0 .n16 .add, .bina hp 0 0 0 .n32 .cas, .binr hp 0 1 (.s 0) false, .binr hp 0 0 (.v 0) false,
    .mma hp 0 2 .plus false 0, .mxld hp 0 (.v 1) 0 .f32 0, .mxld hp 0 (.v 0) 0 .n32 0, .mxst hp 0 (.i 0) 0 .f32 .rn 0 false, .mxst hp 0 (.v 0) 0 .f64 .rn 0 false,
    .mxz hp 0 .pinf 0 true, .launch hp 0 1 none, .launch hp 0 0 (some 10), .vregs hp 0 (.i 12) 0, .vregs hp 0 (.i 0) 0, .vregs hp 0 (.i 264) 0,
    .vregs hp 0 (.v 0) 0] : List Instr).all (fun i => !i.wf) = true := by decide
/-- Scalar and privileged. -/
theorem test_wf_refuses_scalar : ([.sadd hp 0 0 (.v 0) .i32, .sadd hp 1 0 (.s 0) .i64, .ssub hp 0 1 (.s 0) .n64, .smul hp 0 0 (.s 1) .i64, .smin hp 0 0 (.s 0) .i16,
    .slop3 hp 0 0 0 1 .n64 0, .slop3 hp 0 0 0 0 .i32 0, .sshl hp 0 0 (.s 0) .i32, .sshr hp 0 0 (.v 0) .n32, .slea hp 0 0 0 .n32 true 0, .smov hp 0 (.v 0) .n32,
    .smov hp 0 (.s 1) .n64, .scvt hp 0 0 .q4 .f32 false, .scvt hp 1 0 .f64 .f32 false, .scvt hp 0 0 .f32 .i32 true, .ssetp hp 0 0 (.s 0) .i32 .num,
    .ssetp hp 0 1 (.s 0) .f64 .eq, .ssel hp 0 0 (.v 0) .n32 0 false, .mfs hp (.s 0) 0, .mfs hp (.v 1) 0x11, .mfs hp (.v 0) 0x0E, .mfs hp (.p 0) 1,
    .mts hp (.s 0) 0x18, .mts hp (.s 0) 0x20, .mts hp (.v 0) 1, .mtsExcctl hp (.v 0), .mtsExccount hp (.i 512), .mtsExcwin hp (.p 0), .mtsFaultmask hp (.v 1),
    .mtsTrappc hp (.s 1), .xcinv hp 0 2 0, .msgs hp 0 8 (.s 0), .msgs hp 0 0 (.v 0), .msgr hp 1 0, .msgr hp 0 8] : List Instr).all (fun i => !i.wf) = true := by decide

/-! States that meet the hypotheses of the statements. -/

/-- The only wave of the small states. -/
def w0 : WaveId := ⟨0, 0, 0⟩
/-- One block of one wave of eight lanes, with a NOP at its PC. -/
def s0 : State := State.reset.withFetchWord 96 0x005C00000000000000000000
/-- `s0` with its wave changed. -/
def mw (f : Wave → Wave) : State := s0.modWave w0 f
/-- The wave of `s0`. -/
def wave0 : Wave := (s0.wave w0).getD (probeRecord.newWave ⟨0, 0⟩ 0 0 0 0 0)
/-- `s0` with p0 true in lanes 0 and 2. -/
def sq : State := mw fun w => { w with preds := [(0, 5)] }
/-- `s0` in the handler of its wave. -/
def sh (f : Wave → Wave) : State := mw fun w => f { w.modSplit 0 fun x => { x with st := .handler } with
  mode := .handler, hand := some { split := 0, second := false, prev := .running, preds := 0, path := { pc := 0, mask := 1 } } }
/-- `i` reaches its meaning in a context of which `p` holds. -/
def meets (s : State) (i : Instr) (p : Ctx → Bool) : Bool := match s.clears i with | some c => p c | none => false
/-- `i` reaches its meaning. -/
def clear (s : State) (i : Instr) : Bool := (s.clears i).isSome
/-- `exec` answers a next state of which `p` holds. -/
def leads (i : Instr) (s : State) (p : State → Bool) : Bool := match exec i s with | .next t => p t | _ => false
/-- `s0` with an operation in flight. -/
def so (k : OpKind) : State := { s0 with nextOp := 2
                                         ops := [{ id := 1, wave := w0, split := 0, second := false, pc := 0, core := ⟨0, 0⟩, space := 0, kind := k }] }
/-- `s0` with a block of two cores, which spans hearth 0 of D0. -/
def sx : State := s0.modBlock 0 0 fun b => { b with ncores := 2 }

/-- Claims.IntegerTwoSource, Claims.IntegerThreeSource. -/
theorem test_meets_IntegerInstructions : ([.iadd hp 1 (.v 2) (.v 3) .i32 false, .isub hp 1 (.v 2) (.i 3) .n32 true, .imul hp 2 (.v 4) (.s 6) .i64 false,
    .imulhi hp 1 (.v 2) (.v 3) .n32, .imin hp 1 (.v 2) (.v 3) .i8, .imax hp 1 (.v 2) (.v 3) .n16, .iabs hp 1 (.v 2) .i32 true,
    .imad hp 1 (.v 2) (.v 3) (.v 4) .i32 false, .isad hp 1 (.v 2) (.v 3) (.v 4) .n32 false, .idot4 hp 1 (.v 2) (.v 3) (.v 4) .i32 true 3] :
      List Instr).all (clear s0) = true := by decide +kernel
/-- Claims.ShiftsAndFields, Claims.MovesAndCounts. -/
theorem test_meets_BitInstructions : ([.lop3 hp 1 (.v 2) (.v 3) (.v 4) .n32 0x96, .shl hp 1 (.v 2) (.v 3) .n32, .shr hp 1 (.v 2) (.i 3) .n32,
    .shra hp 1 (.v 2) (.v 3) .i32, .rot hp 2 (.v 4) (.v 3) .n64 true, .shf hp 1 (.v 2) (.v 3) (.v 4) false, .bfe hp 1 (.v 2) (.v 3) .i32,
    .bfi hp 1 (.v 2) (.v 3) .n32, .popc hp 1 (.v 2) .n32, .clz hp 1 (.v 2) .n64, .brev hp 1 (.v 2) .n32, .prmt hp 1 (.v 2) (.v 3) 0x3210,
    .lea hp 2 (.v 4) (.v 3) .n64 true 2, .mov hp 1 (.s 2) .n32, .movi hp 1 7, .sel hp 1 (.v 2) (.v 3) .n32 0 false] :
      List Instr).all (clear s0) = true := by decide +kernel
/-- Claims.PredicateWriters, Claims.LaneExchange. -/
theorem test_meets_LaneInstructions : ([.setp hp 0 (.v 2) (.v 3) .i32 .lt, .plop hp 0 1 2 3 0xFE, .vote hp .any (.p 1) 0, .vote hp .ballot (.s 2) 0,
    .elect hp 0 (some 3), .shfl hp 1 2 (.i 1) .n32 .xor 0, .readlane hp 1 2 (.i 3) .n32, .wred hp (.s 1) 2 .i32 .rn .add,
    .wscan hp 1 2 .f32 .rz .add true] : List Instr).all (clear s0) = true := by decide +kernel
/-- Claims.FloatArithmetic, Claims.FloatFunctions. -/
theorem test_meets_FloatInstructions : ([.fadd hp 1 (.v 2) (.v 3) .rn false true, .fsub hp 1 (.v 2) (.i 3) .rz false false, .fmul hp 1 (.v 2) (.v 3) .ru true false,
    .ffma hp 1 (.v 2) (.v 3) (.v 4) .rd false false true, .dadd hp 2 (.v 4) (.v 6) .rn false false, .dmul hp 2 (.v 4) (.v 6) .rn false false,
    .dfma hp 2 (.v 4) (.v 6) (.v 8) .rn false false false, .fmin hp 1 (.v 2) (.v 3), .fmax hp 1 (.v 2) (.v 3), .frcp hp 1 (.v 2) .rn, .frsq hp 1 (.v 2),
    .fsqrt hp 1 (.v 2) .rn, .fexp2 hp 1 (.v 2), .flog2 hp 1 (.v 2), .fsin hp 1 (.v 2), .fcos hp 1 (.v 2), .fscale hp 1 (.v 2) (.v 3) .rn,
    .frnd hp 1 (.v 2) .rz, .fclass hp 1 (.v 2) .f64] : List Instr).all (clear s0) = true := by decide +kernel
/-- Claims.HalfArithmetic, Claims.Conversions. -/
theorem test_meets_HalvesAndConversions : ([.fdot2 hp 1 (.v 2) (.v 3) (.v 4) .f16 .rn false false false, .hadd2 hp 1 (.v 2) (.v 3) .bf16 .rn false false .min,
    .hmul2 hp 1 (.v 2) (.v 3) .f16 .rn false false, .hfma2 hp 1 (.v 2) (.v 3) (.v 4) .bf16 .rn false false true, .cvt hp 2 (.v 4) .f64 .f32 .rn false,
    .qpack hp 1 8 (.i 127) .f32, .qunpack hp 4 (.v 1) (.i 127) .bf16] : List Instr).all (clear s0) = true := by decide +kernel
/-- Claims.Once and the compare of the scalar class. -/
theorem test_meets_ScalarClass : ([.sadd hp 1 2 (.s 3) .i32, .ssub hp 1 2 (.i 3) .n32, .smul hp 2 4 (.s 6) .i64, .smin hp 1 2 (.s 3) .i32, .smax hp 1 2 (.s 3) .n32,
    .slop3 hp 1 2 3 4 .n32 0x80, .sshl hp 1 2 (.s 3) .n32, .sshr hp 1 2 (.i 3) .i32, .slea hp 2 4 3 .n64 false 3, .smov hp 1 (.i 5) .n32,
    .scvt hp 1 2 .f32 .i32 false, .ssetp hp 0 2 (.s 3) .i32 .ge, .ssel hp 1 2 (.s 3) .n32 0 true] : List Instr).all (clear s0) = true := by decide +kernel

/-- Claims.Jumps: taken to a PC, taken to no PC, not taken, and taken in some lanes only. -/
theorem test_meets_UniformBranches : ([.bra hp 5, .brx hp 2, .ret hp 2, .call hp 4 (.i 5), .call hp 4 (.s 2)] : List Instr).all
      (fun i => meets s0 i fun c => c.sel == c.mask && (pcOk (dispPc c.pc 5) && pcOk (c.sPair 2))) = true ∧
    meets s0 (.bra hp (BitVec.ofInt 30 (-16))) (fun c => c.sel == c.mask && !pcOk (dispPc c.pc (BitVec.ofInt 30 (-16)))) = true ∧
    ([.bra hn 5, .brx hn 2, .ret hn 2, .call hn 4 (.i 5), .nop hn, .yield hp] : List Instr).all (clear s0) = true ∧
    ([.bra hq 5, .brx hq 2, .ret hq 2, .call hq 4 (.s 2)] : List Instr).all (fun i => meets sq i fun c => c.sel != c.mask && c.sel != 0) = true := by
  decide +kernel
/-- Claims.Diverges and Claims.DivergentBranches: no lane, a bad PC, every lane; a free second path; a free split and join; none free; a second path
already; and a full stack. -/
theorem test_meets_DivergentBranches :
    ([.braDual hn 5 0 0, .braSplit hn 5 0 0] : List Instr).all (fun i => meets s0 i fun c => c.sel == 0) = true ∧
    ([.braDual hp (BitVec.ofInt 30 (-16)) 0 0, .braSplit hp (BitVec.ofInt 30 (-16)) 0 0] : List Instr).all (clear s0) = true ∧
    ([.braDual hp 5 0 0, .braSplit hp 5 0 0] : List Instr).all (fun i => meets s0 i fun c => c.sel == c.mask && pcOk (dispPc c.pc 5)) = true ∧
    meets sq (.braDual hq 5 0 0) (fun c => c.sel != 0 && c.sel != c.mask && (c.w.split c.split).p2.isNone) = true ∧
    meets sq (.braSplit hq 5 0 0) (fun c => c.sel != 0 && c.sel != c.mask && c.w.freeSplit == some 1 && c.w.freeJoin == some 0) = true ∧
    meets (sq.modWave w0 fun w => { w with joins := w.joins.map fun j => { j with used := true } }) (.braSplit hq 5 0 0)
      (fun c => c.sel != 0 && c.sel != c.mask && c.w.freeJoin.isNone && (c.w.split c.split).stack == []) = true ∧
    (let s := sq.modWave w0 fun w => w.modSplit 0 fun x => { x with p1 := { x.p1 with mask := 15 }, p2 := some { pc := 0, mask := 0xF0 } };
      meets s (.braDual hq 5 0 0) (fun c => c.sel != 0 && c.sel != c.mask && (c.w.split c.split).p2.isSome) = true) ∧
    (let s := sq.modWave w0 fun w => w.modSplit 0 fun x => { x with p1 := { x.p1 with mask := 15 }, p2 := some { pc := 0, mask := 0xF0 }
                                                                    stack := List.replicate 29 ⟨.pending, 0, 0, 0, none, 0, none⟩ };
      meets s (.braDual hq 5 0 0) (fun c => c.sel != 0 && c.sel != c.mask && decide (32 < (c.w.split c.split).stack.length + 4)) = true) := by
  decide +kernel
/-- JoinRule: each of its cases, on a wave whose innermost join is at PC 0x10. -/
theorem test_meets_JoinRule :
    (wave0.innermost 0 ≠ some 0x10) ∧
    (let w := wave0.modSplit 0 fun x => { x with p2 := some { pc := 0x10, mask := 0xF0 }, dualJoin := 0x10 };
      w.innermost 0 = some 0x10 ∧ ((w.split 0).p2.map Path.atJoin) = some false) ∧
    (let w := wave0.modSplit 0 fun x => { x with p1 := { x.p1 with atJoin := true }, p2 := some { pc := 0x10, mask := 0xF0 }, dualJoin := 0x10 };
      w.innermost 0 = some 0x10 ∧ (w.split 0).p1.atJoin = true) ∧
    (let w := wave0.modSplit 0 fun x => { x with p2 := some { pc := 0x10, mask := 0xF0, atJoin := true }, dualJoin := 0x10 };
      w.innermost 0 = some 0x10 ∧ ((w.split 0).p2.map Path.atJoin) = some true ∧ (w.split 0).p1.atJoin = false) ∧
    (let w := wave0.modSplit 0 fun x => { x with stack := [⟨.reconverge, 0x10, 0, 0, none, 0, none⟩, ⟨.reconverge, 0x20, 7, 0, none, 0, none⟩] };
      w.innermost 0 = some 0x10 ∧ (w.split 0).p2 = none) ∧
    (let w := { wave0.modSplit 0 fun x => { x with stack := [⟨.reconverge, 0x10, 1, 0, none, 0, none⟩, ⟨.pending, 0x20, 0x38, 0x10, none, 0, none⟩] } with
        ended := 15 };
      w.innermost 0 = some 0x10 ∧ (1#64) &&& ~~~w.ended = 0 ∧ (0x38#64) &&& ~~~w.ended = 0x30) ∧
    (let w := { wave0.modSplit 0 fun x => { x with stack := [⟨.reconverge, 0x10, 1, 0, none, 0, none⟩, ⟨.pending, 0x20, 0, 0x10, none, 0, none⟩] } with
        ended := 1 };
      w.innermost 0 = some 0x10 ∧ (w.split 0).p2 = none ∧ (w.split 0).stack ≠ [] ∧ ∀ x ∈ (w.split 0).stack, x.mask &&& ~~~w.ended = 0) ∧
    (let w := { (wave0.modSplit 0 fun x => { x with parent := some 1 }).modSplit 2 fun x => { x with st := .parkedJoin, parent := some 1 } with
        joins := [{}, { used := true, joinPc := 0x10, expected := 0xFFF, arrived := 0xF00 }, {}, {}] };
      w.innermost 0 = some 0x10 ∧ (w.joins.getD 1 {}).arrived ||| (w.split 0).p1.mask = (w.joins.getD 1 {}).expected ∧
      (w.split 2).st = .parkedJoin ∧ (w.split 2).parent = some 1) ∧
    (let w := wave0.modSplit 0 fun x => { x with stack := [⟨.pending, 0x20, 3, 0x10, none, 0, none⟩] };
      w.innermost 0 = some 0x10 ∧ (w.split 0).p2 = none) ∧
    (let w := { wave0.modSplit 0 fun x => { x with parent := some 1 } with joins := [{}, { used := true, joinPc := 0x10, expected := 0xFFF }, {}, {}] };
      w.innermost 0 = some 0x10 ∧ (w.split 0).stack = [] ∧ (w.joins.getD 1 {}).arrived ||| (w.split 0).p1.mask ≠ (w.joins.getD 1 {}).expected) := by
  decide +kernel
/-- ExitRule: a path with lanes left, one of a dual pair without, one with a stack, one with neither; an entry that merges, where another split is parked. -/
theorem test_meets_ExitRule :
    ((wave0.split 0).st = .running ∧ (((wave0.split 0).drop 1).path false).mask ≠ 0 ∧ (((wave0.split 0).drop 0xFF).path false).mask = 0 ∧ (wave0.split 0).stack = []) ∧
    (let w := wave0.modSplit 0 fun x => { x with p1 := { x.p1 with mask := 15 }, p2 := some { pc := 0x10, mask := 0xF0 } };
      (((w.split 0).drop 15).path false).mask = 0 ∧ ((w.split 0).drop 15).p2.isSome = true) ∧
    (let w := wave0.modSplit 0 fun x => { x with stack := [⟨.pending, 0x20, 0, 0x10, none, 0, none⟩, ⟨.reconverge, 0x10, 7, 0, none, 0, none⟩] };
      (((w.split 0).drop 0xF8).stack.map fun e => e.mask &&& ~~~(1 ||| 0xF8)) = [0, 6]) ∧
    (let w := { (wave0.modSplit 0 fun x => { x with parent := some 1 }).modSplit 2 fun x => { x with st := .parkedJoin, parent := some 1 } with
        joins := [{}, { used := true, joinPc := 0x10, expected := 0xFFF, arrived := 0xF00 }, {}, {}] };
      Claims.outerJoins w 4 (w.split 0).parent = [1] ∧ (w.joins.getD 1 {}).expected &&& ~~~0xFF = (w.joins.getD 1 {}).arrived &&& ~~~0xFF ∧
      (w.split 2).st = .parkedJoin) := by decide +kernel
/-- Claims.JoinAndExit, Claims.SleepAndExpiries. -/
theorem test_meets_ControlInstructions : ([.join hp, .exit hp, .exit hn, .sleep hp (.i 9)] : List Instr).all (clear s0) = true ∧
    (let w := wave0.modSplit 0 fun x => { x with p1 := { x.p1 with wait := some (.sleep 0) } };
      w.resident = true ∧ w.dbg = false ∧ w.hand = none ∧ (w.split 0).st = .running ∧ (w.split 0).p2 = none ∧ w.splits.length = 4) ∧
    (let s := (mw fun w => w.modSplit 0 fun x => { x with p1 := { x.p1 with yieldAt := some 1 } }).modDie 0 fun d => { d with clk := 9 };
      ((s.wave w0).map fun w => (w.pathAt 0 false w.inHandler).yieldAt) = some (some 1) ∧ 1 + 8 ≤ s.clkOf w0) := by decide +kernel

/-! Steps, checks and traps. -/

/-- DecodeEncode, EncodeOfDecode, CodeAddresses and StoreThenLoad: a well-formed instruction, a word that decodes to one, a PC that is well formed, a
displacement whose slot is too large, a wave. -/
theorem test_meets_encodings : (Instr.isEvent (.nop hp) = false ∧ (Instr.nop hp).wf = true) ∧ decode 0x005C00000000000000000000#96 = .ok (.nop hp) ∧
    pcOk 9 = true ∧ pcOk 0 = true ∧ 9 < ((10#30).extractLsb' 0 4).toNat ∧ (0#4).toNat ≤ 9 ∧ (s0.wave w0).isSome = true := by decide +kernel
/-- Claims.StepIssues: a word that decodes, a word that does not, and each in handler mode. -/
theorem test_meets_StepIssues :
    ([s0, State.reset.withFetchWord 96 0x005C00010000000000000000, sh id].all fun s => s.inputs == [] && s.due.isNone && s.nextIssue == some ⟨w0, 0, false⟩ &&
      (match s.issuer with | some c => (match s.fetched c with | .word _ => true | _ => false) | none => false)) = true ∧
    (match decode 0x005C00010000000000000000#96 with | .error _ => true | .ok _ => false) = true ∧ (0x005C00010000000000000000#96).extractLsb' 86 10 ≠ 0x182#10 ∧
    Claims.handlerOps.contains 0 = false ∧ ((sh id).issuer.map Ctx.hand) = some true := by decide +kernel
/-- Claims.StepOrder: an input, what is due, a completion, a limit, and the end of a clock. -/
theorem test_meets_StepOrder :
    isInput (.powerOnReset 0) = true ∧
    ((mw fun w => { w with lats := [⟨.s 5, [(0, 1)], 0, 0, 0, false, false, none⟩] }).due).isSome = true ∧
    (let s := State.reset.modDie 0 fun d => { d with toPower := some .p1 };
      s.due.isNone && s.nextIssue.isNone && s.completes.isSome) = true ∧
    (let s := { mw fun w => w.modSplit 0 fun x => { x with p1 := { x.p1 with wait := some (.counter .cpy 0 3 0) } } with auto := false };
      s.due.isNone && s.nextIssue.isNone && (s.limits.findSome? fun i => tryEvent i s).isSome) = true ∧
    (State.reset.due.isNone && State.reset.nextIssue.isNone && State.reset.completes.isNone &&
      (State.reset.limits.findSome? fun i => tryEvent i State.reset).isNone) = true ∧
    Input.late (.udpPort 9) = false ∧ Input.late (.event (.waitTimeout ⟨w0, 0, false⟩)) = true ∧ s0.up 0 = true ∧
    (s0.modDie 0 fun d => { d with online := false }).up 0 = false ∧ (List.replicate 16 (0 : Word)).length = 16 := by decide +kernel
/-- R13, R339, R341: a message that a firmware wave sends stands in its mailbox; R283: the port that a management call sets. -/
theorem test_inputs :
    (match step { s0 with inputs := [(0, .fwSend 0 1 2 3 false 0 (List.replicate 16 7))] } with
      | .next t => t.dies.any fun d => d.boxes.any fun b => b.map Msg.words == [List.replicate 16 7]
      | _ => false) = true ∧
    (match step { s0 with inputs := [(0, .udpPort 9)] } with | .next t => t.udpPort == 9 | _ => false) = true := by decide +kernel
/-- MemFormKept: a state of that form, with a byte listed, that makes a step. -/
theorem test_meets_MemFormKept : Memory.wf ({ s0 with mem := [(3, 7)] } : State).mem = true ∧
    (match step { s0 with mem := [(3, 7)] } with | .next t => decide (t.now = 0) | _ => false) = true := by decide +kernel
/-- Claims.IssueOutcomes: a register beyond its allocation, a hold, a register line that is away, a result read too early in a checked launch, and an
uncorrectable line. -/
theorem test_meets_IssueOutcomes :
    let i : Instr := .iadd hp 1 (.v 2) (.v 3) .i32 false
    let at_ : State → (Ctx → Bool) → Bool := fun s p => match s.issuer with | some c => p (c.guard i) | none => false
    let chk := s0.modGrid 0 fun g => { g with rec_ := { g.rec_ with check := true } }
    at_ (mw fun w => { w with valloc := 8 }) (fun c => (entryTrap i c).isNone) = true ∧
    at_ (mw fun w => { w with valloc := 2 }) (fun c => (entryTrap i c).isSome) = true ∧
    at_ (so (.strongLoad 3 [⟨0, 0, 0, 0, 0, []⟩] .n32 4 false 2)) (fun c => held i c (so (.strongLoad 3 [⟨0, 0, 0, 0, 0, []⟩] .n32 4 false 2))) = true ∧
    at_ (mw fun w => { w with away := [vline 8 2 0] }) (fun c => (((readLines i c).find? fun l => c.w.away.contains l.2).isSome)) = true ∧
    (let s := chk.modWave w0 fun w => { w with lats := [⟨.v 2, [(0, 1)], 9, 0x10, 0, false, false, none⟩] };
      at_ s (fun c => c.grid.rec_.check && (stallFault i c s).isSome) = true) ∧
    at_ (mw fun w => { w with badRegs := [vline 8 3 0] }) (fun c => (((readLines i c).find? fun l => c.w.badRegs.contains l.2).isSome)) = true := by
  decide +kernel
/-- GuardSelects and PrivilegedClass: a path outside handler mode; an instruction that needs privilege, and one that does not. -/
theorem test_meets_GuardSelects_PrivilegedClass : (s0.issuer.map Ctx.hand) = some false ∧ Claims.privileged (.halt hp) = true ∧
    Claims.privileged (.reopenTrap hp 0 0) = true ∧ Claims.privileged (.mfs hp (.v 0) 1) = false ∧ (s0.issuer.map fun c => c.w.firmware) = some false ∧
    (s0.issuer.bind fun c => entryTrap (.vote hp .ballot (.v 1) 0) ({ c with w := { c.w with width := 64 } } : Ctx)).isSome = true := by decide +kernel
/-- Claims.EntryChecks: a ballot of a wave of 64 lanes into an odd register, a register beyond its allocation, and a read that meets a result too early. -/
theorem test_meets_EntryChecks :
    (let s := mw fun w => { w with width := 64 };
      (s.issuer.map fun c => (c.hand, c.w.width)) = some (false, 64)) ∧ Claims.privileged (.vote hp .ballot (.v 1) 0) = false ∧
    ((usesAt 8 (.iadd hp 1 (.v 2) (.v 3) .i32 false)).find? fun u => match u.reg with | .v r => decide (2 < r + u.n) | _ => false).map Use.fld = some .a ∧
    (let s := (s0.modGrid 0 fun g => { g with rec_ := { g.rec_ with check := true } }).modWave w0 fun w =>
        { w with lats := [⟨.v 2, [(0, 1)], 9, 0x10, 0, false, false, none⟩] };
      (s.issuer.bind fun c => stallFault (.iadd hp 1 (.v 2) (.v 3) .i32 false) c s) = some (.a, 0x10)) := by decide +kernel
/-- HandlerSubset. -/
theorem test_meets_HandlerSubset : ((sh id).issuer.map Ctx.hand) = some true ∧
    Claims.handlerOps.contains (Claims.opcode (.iadd hp 1 (.v 2) (.v 3) .i32 false)) = false := by decide +kernel
/-- Claims.ScoreboardHolds. -/
theorem test_meets_ScoreboardHolds :
    (OpKind.strongLoad 3 [⟨0, 0, 0, 0, 0, []⟩] .n32 4 false 2).dests.any (fun d => d.1 == .v 2 && d.2.2 &&& wave0.lanes != 0) = true ∧
    (usesAt 8 (.iadd hp 1 (.v 2) (.v 3) .i32 false)).any (fun u => runsMeet u.reg u.n (.v 2) 1) = true := by decide +kernel
/-- FixedLatencies, FixedFrame, LatencyResults and IssueMarks: results that are due and that are not, of each file; a first path, a second one and a
handler's. -/
theorem test_meets_FixedLatencies :
    let i : Instr := .smul hp 2 4 (.s 6) .i64
    i.wf = true ∧ Claims.latency i = some 2 ∧ Claims.pureFixed i = true ∧ clear s0 i = true ∧
    leads i s0 (fun t => ((t.wave w0).map Wave.lats) == some [⟨.s 2, [(0, 0)], 2, 0, 0, false, false, none⟩, ⟨.s 3, [(0, 0)], 2, 0, 0, false, false, none⟩]) = true ∧
    (let w := { wave0 with lats := [⟨.v 2, [(1, 7)], 0, 0, 0, false, false, none⟩, ⟨.p 1, [(3, 1)], 0, 0, 0, false, false, none⟩] };
      w.lats.all (fun f => decide (f.due ≤ s0.clk 0) && f.vals.all fun v => decide (v.1 < 64)) = true ∧ (w.lats.all fun f => decide (f.vals.map Prod.fst).Nodup)) ∧
    (let w := { wave0 with lats := [⟨.s 2, [(0, 7)], 9, 0, 0, false, false, none⟩, ⟨.v 2, [(1, 8)], 9, 0, 0, false, false, none⟩] };
      (w.lats.all fun f => f.vals.all fun v => decide (v.1 < 64)) = true ∧ ∀ g ∈ w.lats, g.reg = .v 2 → g = ⟨.v 2, [(1, 8)], 9, 0, 0, false, false, none⟩) ∧
    (let w := { wave0 with hand := some { split := 0, second := false, prev := .running, preds := 0, path := {} }
                           lats := [⟨.p 1, [(3, 1)], 9, 0, 0, false, true, none⟩] };
      w.hand.isSome = true ∧ ((w.view 0 0).hand).isSome = true) ∧
    ((s0.issuer.map fun c => (c.hand, c.second, c.split)) = some (false, false, 0) ∧ wave0.splits.length = 4) ∧
    (let s := mw fun w => w.modSplit 0 fun x => { x with p1 := { x.p1 with mask := 15, wait := some (.sleep 9) }, p2 := some { mask := 0xF0 } };
      (({ s with cur := ⟨w0, 0, true⟩ } : State).issuer.map fun c => (c.hand, c.second, (c.w.split 0).p2.isSome)) = some (false, true, true)) ∧
    ((sh id).issuer.map fun c => (c.hand, c.w.hand.isSome)) = some (true, true) ∧
    (let w := wave0.modSplit 0 fun x => { x with p1 := { x.p1 with readyAt := 5 } }; s0.clk 0 < (w.pathAt 0 false w.inHandler).readyAt) := by decide +kernel

/-- One page of 2 MiB mapped in space 0, with every permission. -/
def sm : State := { s0 with spaces := [(0, [⟨0, 2 ^ 21, 2 ^ 30, ⟨true, true, true⟩⟩])] }
/-- TrapEntry: a wave outside handler mode, with its image mapped and not. -/
theorem test_meets_TrapEntry : ((sm.wave w0).map Wave.inHandler) = some false ∧ (sm.grid 0).isSome = true ∧
    (sm.walk (sm.spaceOf 0) (wave0.image + 0x40)).isSome = true ∧ (s0.walk (s0.spaceOf 0) (wave0.image + 0x40)).isNone = true := by decide +kernel
/-- TrapFields, HandlerRules: a handler with and without a trap pending, on a path of either kind. -/
theorem test_meets_HandlerRules : ({ type := 7, sub := 3 } : FaultRecord).type < 256 ∧
    (([sh id, sh fun w => { w with pending := some ⟨.debug, {}, 0, 0, false, false, none⟩ },
       sh fun w => { w.modSplit 0 fun x => { x with p2 := some { mask := 2 } } with hand := w.hand.map fun h => { h with second := true } }].all fun s =>
      match s.wave w0 with | some w => w.inHandler && (w.hand.map fun h => decide (h.split < w.splits.length)) == some true | none => false) = true) := by
  decide +kernel
/-- SoftTrap, TrapReturnAndHalt: a guard that selects no lane, outside a handler and within one, with a PC to return to that is well formed and one that is not. -/
theorem test_meets_TrapReturnAndHalt :
    meets s0 (.trap hn 5) (fun c => c.sel == 0) = true ∧ meets s0 (.trap hp 5) (fun c => c.sel != 0 && !c.hand) = true ∧
    meets (sh id) (.trap hp 5) (fun c => c.sel != 0 && c.hand) = true ∧ meets (mw fun w => { w with firmware := true }) (.tret hp) (fun c => !c.hand) = true ∧
    meets (sh id) (.tret hn) (fun c => c.hand && c.sel == 0) = true ∧ meets (sh id) (.tret hp) (fun c => c.sel != 0 && pcOk c.w.trappc) = true ∧
    meets (sh fun w => { w with trappc := 12 }) (.tret hp) (fun c => c.sel != 0 && !pcOk c.w.trappc) = true ∧
    meets (sh id) (.halt hn) (fun c => c.sel == 0) = true ∧ meets (sh id) (.halt hp) (fun c => c.sel != 0) = true := by decide +kernel

/-- FloatValues: a format, numbers whose sum is and is not zero, and values of each special kind. -/
theorem test_meets_FloatValues :
    Claims.ieee fp32 ∧ Claims.isNum (.fin true 3 0) = true ∧ Claims.num (.fin false 3 0) + Claims.num (.fin true 3 0) = 0 ∧
    Claims.num (.fin false 3 0) + Claims.num (.fin false 3 0) ≠ 0 ∧ Claims.num (.fin false 3 0) * Claims.num (.fin true 3 0) ≠ 0 ∧
    Claims.num (.fin false 0 0) * Claims.num (.fin true 3 0) = 0 := by
  refine ⟨.inr (.inl rfl), rfl, ?_, ?_, ?_, ?_⟩ <;> norm_num [Claims.num]
/-- FloatValues: the bits of 1.5, of an infinity, of a quiet and of a signalling NaN; a conversion of each kind. -/
theorem test_meets_FloatValues_special :
    fp32.val 0x3FC00000 = .fin false 0xC00000 (-23) ∧ fp32.val 0xFF800000 = .inf true ∧ fp32.val 0x7FC00000 = .nan false false ∧
    fp32.val 0x7F800001 = .nan false true ∧ Ty.isInt .i32 = true ∧ readInt .i32 0xFFFFFFFF = -1 ∧ (fp32.isSub 1) = true ∧
    cvtElem .i32 .f32 .rn false false false 0x7FC00000 = (0, 1) := by decide +kernel

/-! Windows, commits, atomics and barriers. -/

/-- `s0` with window 1 of every lane in a state. -/
def sw (b : Binding) : State := mw fun w => { w with wins := (List.range 8).map fun l => (16 * l + 1, b) }
/-- A writable binding at address 8 of line 2. -/
def bok : Binding := { st := .bound, addr := 264, line := 2, write := true, rd := 1 }
/-- A load and a store through window 1, at offset 4. -/
def acc1 : List Instr := [.ldw hp 1 1 (.i 4) .n32 2 .nochk, .ldws hp 2 1 (.i 4) .n32 2 .nochk, .stw hp 1 1 (.i 4) .n32 2 .nochk, .stws hp 2 1 (.i 4) .n32 2 .nochk,
  .ldw hp 1 1 (.i 4) .n32 2 (.chk 1), .ldw hp 1 1 (.i 4) .n32 2 (.sc 3), .stw hp 1 1 (.i 4) .n32 2 (.sc 3), .atom hp 1 1 (.const 4) 2 .n32 .add 0 7,
  .atom hp 1 1 (.const 4) 2 .n32 .add 3 7, .red hp 1 (.const 4) 2 .n32 .add 3]
/-- Claims.CloseAndQuery, Claims.OpenAndReopen: with and without lanes; REOPEN with and without a RECALLED lane; REOPEN.TRAP in a handler for and
without a WINDOW_RECALLED trap, and by a firmware wave outside one. -/
theorem test_meets_WindowInstructions :
    ([.close hp 1, .wquery hp 2 1 true, .wquery hp 1 1 false, .open hn 1 (.v 2) 4 2 false 2 24, .open hp 1 (.v 2) 4 2 false 2 24, .reopen hp 1 4 5] :
      List Instr).all (clear (sw { bok with st := .recalled })) = true ∧
    meets (sw { bok with st := .recalled }) (.reopen hp 1 4 5) (fun c => (c.lanes.filter fun l => (c.w.bind l 1).st == .recalled) != []) = true ∧
    clear (sw bok) (.reopen hp 1 4 5) = true ∧
    meets (sh id) (.reopenTrap hp 4 5) (fun c => c.hand && c.w.record.type != 5) = true ∧
    meets (sh fun w => { w with record := { type := 5, mask := 3 }, hand := w.hand.map fun h => { h with win := some 1 } }) (.reopenTrap hp 4 5)
      (fun c => c.hand && c.w.record.type == 5 && (c.w.hand.bind Handler.win) == some 1) = true ∧
    meets (mw fun w => { w with firmware := true }) (.reopenTrap hp 4 5) (fun c => !c.hand) = true := by decide +kernel
/-- BindingRules: a line in the store of a core, with a binding of it. -/
theorem test_meets_BindingRules :
    let s := (sw bok).modCore ⟨0, 0⟩ fun k => { k with store := [(2, { bytes := [], rrpv := 0 })] }
    (tget (s.core ⟨0, 0⟩).store 2).isSome = true ∧ ((s.core ⟨0, 0⟩).store.map Prod.fst).Nodup := by decide +kernel
/-- Claims.Window, Claims.Load, Claims.Store: unbound, recalled, misaligned, read-only and good, and a byte that is uncorrectable. -/
theorem test_meets_WindowAccesses :
    acc1.all (clear s0) = true ∧ acc1.all (clear (sw { bok with st := .recalled })) = true ∧ acc1.all (clear (sw { bok with addr := 266 })) = true ∧
    acc1.all (clear (sw { bok with write := false })) = true ∧ acc1.all (clear (sw bok)) = true ∧
    meets (sw bok) (.ldw hp 1 1 (.i 4) .n32 2 .nochk) (fun c => c.lanes.all fun l => c.w.bind l 1 == bok && decide (264 % 128 + 4 + 4 ≤ 128)) = true ∧
    (let s := mw fun w => { w with wbuf := [{ space := 0, va := 2, pa := 2, bad := true, bytes := [(12, ⟨1, 0, 0⟩)] }] };
      (s.plainByte w0 ⟨0, 0⟩ 2 2 12).2 = true) ∧
    ((s0.wave w0).isSome = true) := by decide +kernel
/-- Claims.Pantry: within the share and beyond it, and with an uncorrectable byte. -/
theorem test_meets_PantryAccesses :
    ([.ldl hp 1 (.v 2) 8 .n32 2, .stl hp 1 (.v 2) 8 .n32 2, .ldl hp 1 (.v 2) 3 .n32 2, .stl hp 1 (.v 2) 8192 .n32 2] : List Instr).all (clear s0) = true ∧
    clear (s0.modBlock 0 0 fun b => { b with shares := [{ bad := [8] }] }) (.ldl hp 1 (.v 2) 8 .n32 2) = true ∧
    ((s0.block 0 0).map fun b => b.shares.length) = some 1 := by decide +kernel
/-- ContinuedStores: ended, each failing check, one line, two lines, and a continuation that is not bound. -/
theorem test_meets_ContinuedStores :
    let i : Instr := .cstw hp 2 1 (.i 0) .n32 3
    let two : Binding → State := fun k => mw fun w => { w with wins := sset {} [(1, { bok with addr := 124, line := 0 })] 3 k }
    meets (mw fun w => { w with resume := [⟨0, 255, 0, 8⟩] }) i (fun c => c.lanes.length ≤ c.resumeIx.getD 0) = true ∧
    ([s0, sw { bok with st := .recalled }, sw { bok with write := false }, sw { bok with addr := 266 }, sw bok, two { bok with addr := 128, line := 7 },
      two {}].all fun s => meets s i fun c => c.lanes.length > c.resumeIx.getD 0) = true ∧
    meets (two {}) i (fun c => (List.range c.lanes.length).any fun j => decide (128 < (c.w.bind 0 1).addr.toNat % 128 + j * 4 + 4)) = true := by decide +kernel

/-- CommitRules, CommitsAndAborts: the instructions, and a COMMIT, an ABORT and an ACQUIRE in flight that may complete. -/
theorem test_meets_Commits :
    ([.commit hp 4 3 none, .commit hp 4 1 (some 6), .abort hp 4 0, .abort hp 4 2, .acquire hp 4 3, .ifence hp, .commit hn 4 3 none] : List Instr).all (clear s0) = true ∧
    ([.commit 3 none 4 [], .commit 2 (some 6) 4 [], .abort 1 4, .acquire 3 4 none false 0] : List OpKind).all (fun k => match (so k).op 1 with
      | some o => (so k).outboundReady o && (so k).outboundClear o && !(so k).marksWait o 3 []
      | none => false) = true ∧ ((s0.block 0 0).isSome && (s0.group 0 (s0.groupOf 0 0)).isSome) = true ∧
    (let s := (so (.acquire 3 0 none true 0)).modWave w0 fun w => { w with wins := [(1, { bok with st := .pending })] };
      (s.op 1).isSome = true ∧ ((s.wave w0).map Wave.rebinding) = some true) ∧
    (let d : Delta := { space := 0, va := 1, pa := 1, bytes := [(3, ⟨7, 0, 0⟩)] }; d.marked = false ∧ (d.bytes.map Prod.fst).Nodup ∧
      conflicts [{ space := 0, va := 1, pa := 1, bytes := [(3, ⟨8, 1, 2⟩)] }] [d] 0 1 ≠ []) := by decide +kernel
/-- A strict COMMIT whose level has changed, one in conflict, and a COMMIT behind a strong store. -/
theorem test_meets_CommitCompletes_strict :
    let d : Delta := { space := 0, va := 1, pa := 1, bytes := [(3, ⟨7, 0, 0⟩)] }
    (let s := (so (.commit 1 (some 6) 4 [d])).modBlock 0 0 fun b => { b with gen := 1 };
      ((s.block 0 0).map Block.gen) ≠ ((s.wave w0).map fun w => w.recBlock.1)) ∧
    conflicts [{ space := 0, va := 1, pa := 1, bytes := [(3, ⟨8, 1, 2⟩)] }] [d] 0 0 ≠ [] ∧
    (let o : Op := { id := 2, wave := w0, split := 0, second := false, pc := 0, core := ⟨0, 0⟩, space := 0, kind := .commit 1 none 4 [] };
      ({ so (.strongStore 3 []) with ops := (so (.strongStore 3 [])).ops ++ [o] } : State).outboundReady o = false ∧
      (let s : State := { so (.commit 1 (some 6) 4 [d]) with ops := (so (.commit 1 (some 6) 4 [d])).ops ++ [o] };
        (((s.ops.dropWhile fun x => x.id != 1).tail.find? fun x => x.wave == w0 && !x.done).map Op.id) = some 2)) := by decide +kernel
/-- DeviceAccesses: a write of two bytes, an update on its way, and one lane of an ATOM at device scope. -/
theorem test_meets_DeviceAccesses :
    let cells : Cells := [(3, 1), (4, 2)]
    let k : Core := { store := [(2, { bytes := [], rrpv := 0 })], updq := [⟨1, 0, 2, cells, false⟩] }
    (cells.map Prod.fst).Nodup ∧ (cells.all fun b => decide (b.1 < 128)) = true ∧ k.updq.find? (fun u => u.home == 0) = some ⟨1, 0, 2, cells, false⟩ ∧
    (tget k.store 2).isSome = true ∧ isHost 264 = false ∧ 264 % 128 + Ty.n32.bytes ≤ 128 ∧
    (let a : LaneAcc := { lane := 0, va := 264, pa := 2 ^ 30 + 264, b := 5 }; sm.nowAt 0 a = a ∧ sm.refusal w0 0 3 a 4 = none) := by decide +kernel
/-- AtomicAccesses: strong operations in flight that may perform, one that waits, and one of wave scope whose line is and is not behind; system scope to host memory that PCIe cannot carry. -/
theorem test_meets_AtomicAccesses :
    let a : LaneAcc := { lane := 0, va := 264, pa := 264 }
    ([.atom 3 [a] .n32 .add 1 7, .strongLoad 3 [a] .n32 4 false 1, .strongStore 3 [{ a with bytes := [1, 2, 3, 4] }]] : List OpKind).all (fun k =>
      match (so k).op 1 with | some o => (so k).outboundReady o && (so k).loadReady o 3 [a] 4 | none => false) = true ∧
    (let u : Update := { seq := 4, home := 0, line := 2, bytes := [(8, 1)] };
      let s (k : Core → Core) := (so (.strongLoad 0 [a] .n32 4 false 1)).modCore ⟨0, 0⟩ fun c => k { c with store := [(2, { bytes := [], rrpv := 0 })], updq := [u] };
      (s id).behind w0 ⟨0, 0⟩ 2 = false ∧
      (s fun c => { c with floors := [⟨0, 0, some (0, 0), 264, 4⟩] }).behind w0 ⟨0, 0⟩ 2 = true) ∧
    ((64 = 64 ∧ (Ty.n64 = .i64 ∨ Ty.n64 = .n64)) ∧ (Ty.f64 = .f32 ∨ Ty.f64 = .f64)) ∧
    ([0].Perm ([a].map LaneAcc.lane)) ∧ pcieOk .f32 .add false = false ∧ isHost (128 * (hostBase / 128)) = true ∧
    meets (sw { bok with line := hostBase / 128 }) (.atom hp 1 1 (.const 4) 2 .f32 .add 4 7)
      (fun c => maskOf (c.lanes.filter fun l => isHost (128 * (c.w.bind l 1).line)) != 0) = true := by decide +kernel

/-- `s0` whose grid declares block barrier 0 for its one wave, and wave barrier 0 for eight lanes. -/
def sb : State := s0.modGrid 0 fun g => { g with rec_ := { g.rec_ with bars := [⟨⟨1, 0⟩, 0, 0, 0⟩, ⟨⟨0, 0⟩, 8, 0, 0⟩] } }
/-- BarrierInstructions: no lane; a count out of range; a member with and without an outbound access in flight; waits on an instance that is there and
on none, on a token that is empty and on one that is not. -/
theorem test_meets_BarrierInstructions :
    ([.arrive hn 2 ⟨1, 0⟩ (.i 1), .barsync hn 2 ⟨1, 0⟩ (.i 1) 9, .waitb hn 2 ⟨1, 0⟩ (.i 0) 9, .waitk hn 2 1 9, .waitn hn 2 (.i 0) .cpy 9, .barq hn 2 ⟨1, 0⟩ .gen,
      .barqReset hn 2 ⟨1, 0⟩] : List Instr).all (fun i => meets sb i fun c => c.sel == 0) = true ∧
    ([.arrive hp 2 ⟨1, 0⟩ (.s 9), .barsync hp 2 ⟨1, 0⟩ (.s 9) 9] : List Instr).all
      (fun i => meets sb i fun c => c.sel != 0 && Claims.sraw c (.s 9) 1 == 0) = true ∧
    ([.arrive hp 2 ⟨1, 0⟩ (.i 1), .barsync hp 2 ⟨1, 0⟩ (.i 1) 9, .barsync hp 2 ⟨1, 0⟩ (.i 2) 9, .waitb hp 2 ⟨1, 0⟩ (.i 0) 9, .waitb hp 2 ⟨1, 1⟩ (.i 0) 9, .waitk hp 2 1 9,
      .waitn hp 2 (.i 0) .cpy 9, .barq hp 2 ⟨1, 0⟩ .pend, .barqReset hp 2 ⟨1, 0⟩, .barqReset hp 2 ⟨1, 1⟩] : List Instr).all
      (fun i => meets sb i fun c => c.sel != 0 && (sb.beginIssue c.id).quiet c.id) = true ∧
    (so (.strongStore 3 [])).quiet w0 = false ∧ (sb.grid 0).bind (fun g => g.barEntry ⟨1, 0⟩) ≠ none ∧ (sb.grid 0).bind (fun g => g.barEntry ⟨1, 1⟩) = none ∧
    clear (sb.modWave w0 fun w => { w with toks := [(1, ⟨.done, 0⟩)] }) (.waitk hp 2 1 9) = true := by decide +kernel
/-- Claims.BarrierRule: no entry; a member that has not arrived, one that has, and a FAULTED instance, at wave and at block level; and each result of a test. -/
theorem test_meets_BarrierRule :
    (sb.bar w0 ⟨1, 0⟩).faulted = false ∧ (0, 0) ∉ (sb.bar w0 ⟨1, 0⟩).who ∧ (sb.bar w0 ⟨0, 0⟩).lanes &&& 0xFF = 0 ∧
    ((sb.grid 0).bind fun g => (g.barEntry ⟨1, 0⟩).map fun e => (e.member 0, g.barCount e 0)) = some (true, 1) ∧
    ((sb.grid 0).bind fun g => (g.barEntry ⟨0, 0⟩).map fun e => (e.member 0, g.barCount e 0)) = some (true, 8) ∧
    (let s := sb.modBar w0 ⟨1, 0⟩ fun x => { x with who := [(0, 0)], faulted := true }; (s.bar w0 ⟨1, 0⟩).faulted = true ∧ (0, 0) ∈ (s.bar w0 ⟨1, 0⟩).who) ∧
    ({ lastF := some 3 } : Barrier).test 3 = some 2 ∧ ({ gen := 5 } : Barrier).test 4 = some 0 ∧ ({ gen := 5, faulted := true } : Barrier).test 5 = some 2 ∧
    ({ gen := 5 } : Barrier).test 5 = none := by decide +kernel
/-- Claims.ArrivalsAndLimits: an arrival in flight with and without a wait behind it, of a wave that has been pre-empted too, one whose limit has run, one that
has joined, and a wait whose limit has run. -/
theorem test_meets_ArrivalsAndLimits :
    ([.arrival ⟨1, 0⟩ 1 0xFF 2 none, .arrival ⟨1, 0⟩ 1 0xFF 2 (some 5)] : List OpKind).all
      (fun k => match (so k).op 1 with | some o => (so k).outboundClear o | none => false) = true ∧
    (sb.arrive w0 ⟨1, 0⟩ 1 0xFF 0).2.1 = cOK ∧ (sb.arrive w0 ⟨1, 0⟩ 2 0xFF 0).2.1 ≠ cOK ∧
    (let s := (so (.arrival ⟨1, 0⟩ 1 0xFF 2 (some 0))).modWave w0 fun w => { w with resident := false };
      (match s.op 1 with | some o => s.outboundClear o && o.joined.isNone | none => false) = true ∧ ((s.wave w0).map Wave.resident) = some false) ∧
    (let s : State := { so (.arrival ⟨1, 0⟩ 1 0xFF 2 (some 0)) with ops := (so (.arrival ⟨1, 0⟩ 1 0xFF 2 (some 0))).ops.map fun o => { o with joined := some 4 } };
      (s.ops.filter fun x => x.wave == w0 && !x.done).map Op.joined = [some 4]) ∧
    (let s := (so (.arrival ⟨1, 0⟩ 1 0xFF 2 (some 5))).modDie 0 fun d => { d with clk := 9 };
      5 ≤ s.clkOf w0 ∧ ((s.wave w0).map fun w => (w.resident, w.dbg)) = some (true, false) ∧ s0.clkOf w0 < 5) ∧
    s0.endsOf w0 = true ∧ (s0.modDie 0 fun d => { d with power := .p1, phase := 0 }).endsOf w0 = false ∧
    s0.timeoutResult w0 (.token 1 2 0) = some [(2, 1)] ∧ s0.timeoutResult w0 (.token 1 2 9) = none := by decide +kernel

/-! Engines, matrix engines and launches. -/

/-- EngineInstructions: CPY into its first copy, into one that has timed out and beyond its share; BINA, BINR and ISECT. -/
theorem test_meets_EngineInstructions :
    ([.cpy hp 2 4 none .mm 9, .cpy hp 2 4 (some ⟨1, 0⟩) .mp 9, .cpy hn 2 4 none .pm 9, .bina hp 2 4 6 .n32 .add, .binr hp 2 6 (.s 3) true, .isect hp 1 2 3 4] :
      List Instr).all (clear s0) = true ∧
    (((s0.modBlock 0 0 fun b => b.setCopy { n := 1, limit := 5, timedOut := true }).block 0 0).bind fun b => b.copy 1) = some ⟨1, 5, false, true⟩ ∧
    (spanBad 8192 .mp 0 8192 16).isSome = true := by decide +kernel
/-- EngineValues: two ascending lists, and a piece of a copy. -/
theorem test_meets_EngineValues :
    [1, 3, 5].length = [2, 3, 5].length ∧ [1, 3, 5].Pairwise (· < ·) ∧ 0xFFFFFFFF ∉ [2, 3, 5] ∧
    (let s : State := { (so (.cpy 1 .mm 128 4096 300 none 4 0 none)).modBlock 0 0 fun b => b.setCopy { n := 1, limit := 5, issued := true } with spaces := sm.spaces };
      match s.op 1 with
      | some o => s.outboundClear o && s.memEnd o 128 needR == .at (2 ^ 30 + 128) && s.memEnd o 4096 needW == .at (2 ^ 30 + 4096) &&
          s.pieceFault o (.at (2 ^ 30 + 128)) (.at (2 ^ 30 + 4096)) 128 4096 (pieceLen .mm 128 4096 300 0) == none &&
          s.hasEntry o none && (List.range (pieceLen .mm 128 4096 300 0)).all fun j =>
            !s.clash o 1 172 (128 + j) (2 ^ 30 + 128 + j) false && !s.clash o 1 172 (4096 + j) (2 ^ 30 + 4096 + j) true
      | none => false) = true ∧
    ({ sm with mem := [(2 ^ 30 + 130, 9)] } : State).readPiece [5, 6] (2 ^ 30 + 128) 2 2 = [5, 6, 9, 0] := by decide +kernel
/-- Claims.CopyEvents: a copy whose one wave has and has not contributed, one past its limit, one whose slice has ended, and a line that it has finished with. -/
theorem test_meets_CopyEvents :
    let s (issued : Bool) (done cpys now : Nat) : State :=
      { (((so (.cpy 1 .mm 128 4096 300 none 4 done none)).modBlock 0 0 fun b => b.setCopy { n := 1, limit := 5, issued := issued }).modWave w0 fun w =>
          { w with cpys := cpys }).modDie 0 fun d => { d with clk := now } with owned := [(9, 1)] }
    (((s false 0 1 0).wave w0).map Wave.cpys) = some 1 ∧ (((s false 0 0 7).group 0 0).map Group.resident) = some true ∧ (s false 0 0 7).clk 0 ≥ 5 ∧ (s false 0 0 0).clk 0 < 5 ∧
    (s0.die 0).edge = true ∧ ((s0.modDie 0 fun d => { d with power := .p1, phase := 0 }).die 0).ends = false ∧
    ((s true 300 1 0).ops.all fun o => o.sliceEnded && (s true 300 1 0).outboundClear o) = true ∧
    (List.range 128).all (fun k => !(s true 300 1 0).inSpan 0 4396 0 0 (128 * 9 + k)) = true := by decide +kernel

/-- `sm` with one operation in flight. -/
def smo (k : OpKind) : State := { sm with ops := (so k).ops, nextOp := 2 }
/-- Claims.BinEvents: a descriptor that is not there and one that is; a replay of no record and of one; and one that runs. -/
theorem test_meets_BinEvents :
    let mem : Cells := [(2 ^ 30 + 0x1008, 4), (2 ^ 30 + 0x100C, 9), (2 ^ 30 + 0x1011, 0x20), (2 ^ 30 + 0x1019, 0x18), (2 ^ 30 + 0x1804, 1)]
    let s (k : OpKind) : State := { smo k with mem := mem }
    let at_ (k : OpKind) (p : State → Op → Bool) : Bool := match (s k).op 1 with | some o => (s k).outboundClear o && p (s k) o | none => false
    at_ (.bina [] 0x1040 .n32 .add 4 none) (fun s o => s.hasEntry o none && match s.descAt o 0x1040 needW with | .no _ => true | _ => false) = true ∧
    at_ (.bina [] 0x1000 .n32 .add 4 none) (fun s o => match s.descAt o 0x1000 needW with
      | .ok b => decide (0 < b.regions) && s.find o (b.ticketVa 0) needW true == .at (2 ^ 30 + 0x1800) && (b.target - b.target) % 2 ^ 21 % Ty.n32.bytes == 0
      | _ => false) = true ∧
    (let set : BinSet := { target := 2 ^ 21, regions := 2, cap := 1, area := 0x1900, tickets := 0x1800 };
      let walk : BinWalk := { set := set };
      ((so (.bina [] 0x1000 .n32 .add 4 (some walk))).op 1).isSome = true ∧
      at_ (.bina [{ lane := 0, va := 2 ^ 21, pa := 0 }, { lane := 1, va := 2 ^ 22, pa := 0 }, { lane := 2, va := 2, pa := 0 }] 0x1000 .n32 .add 4 (some walk)) (fun s o =>
        let app (va : Nat) := s.appendLane o .n32 .add walk { lane := 0, va := va, pa := 0 };
        (app (2 ^ 21)).isSome && (app (2 ^ 22)).map (fun x => x.2.codes) == some [0x62] && (app 2).map (fun x => x.2.codes) == some [0x61] &&
        (app (2 ^ 21)).map (fun x => x.2.recs) == some [2 ^ 30 + 0x1900] &&
        (s.find o 0x1800 needW true == .at (2 ^ 30 + 0x1800)) && (s.find o 0x1900 needW false == .at (2 ^ 30 + 0x1900)) && (s.find o (2 ^ 21) needW true matches .no _)) = true) ∧
    (let more : State := { s (.binr 0x1000 9 false 4 none) with ops := (List.range 4).map (fun k =>
        { id := 10 + k, wave := w0, split := 0, second := false, pc := 0, core := ⟨0, 0⟩, space := 0, kind := .binr 0 0 false 4 (some (0, [], false)) }) ++
          (s (.binr 0x1000 9 false 4 none)).ops };
      (more.op 1).isSome = true ∧ (more.ops.filter fun x => !x.done && (match x.kind with | .binr _ _ _ _ (some _) => true | _ => false)).length = 4) ∧
    at_ (.binr 0x1000 9 false 4 none) (fun s o => decide ((s.requests o.core).length < 1024) && match s.descAt o 0x1000 needR with | .ok b => decide (b.regions ≤ 9) | _ => false) = true ∧
    at_ (.binr 0x1000 0 false 4 none) (fun s o => match s.descAt o 0x1000 needR with
      | .ok b => decide (0 < b.regions) && s.find o (b.ticketVa 0) needR true == .at (2 ^ 30 + 0x1800) && min (s.devNat (2 ^ 30 + 0x1800) 4) b.cap == 0
      | _ => false) = true ∧
    at_ (.binr 0x1000 1 true 4 none) (fun s o => match s.descAt o 0x1000 needR with
      | .ok b => s.find o (b.ticketVa 1) needRW true == .at (2 ^ 30 + 0x1804) && min (s.devNat (2 ^ 30 + 0x1804) 4) b.cap == 1 &&
          (([b.recordVa 1 0].mapM (s.recordAt o)).isSome)
      | _ => false) = true ∧
    at_ (.binr 0x1000 0 false 4 (some (0x2000, [(0x61, [])], false))) (fun s o => s.hasEntry o none && !([(0x61, [])].foldl (Replay.record s o 0x2000) {}).wait) = true := by decide +kernel

/-- A hearth whose queue holds an operation of the wave of `sx`. -/
def hq1 (m : MxOp) (f : Hearth → Hearth) : State :=
  { sx with ops := (so (.matrix 1)).ops, nextOp := 2, hearths := [((0, 0), f { queue := [m] })] }
/-- MatrixInstructions: no lane, off the leader core, a misaligned address, and each good one, with its tile free and owned by another wave. -/
theorem test_meets_MatrixInstructions :
    let s : State := sx.modWave w0 fun w => { w with sregs := [(9, 512)] }
    let is : List Instr := [.mma hp 1 4 .plus false 0, .mxld hp 1 (.v 4) 9 .f32 0, .mxst hp 1 (.v 4) 9 .f32 .rn 0 true, .mxz hp 1 .pinf 0 false]
    (is.all fun i => meets s i fun c => c.sel != 0 && ((s.beginIssue c.id).hearthOf c.id c.w) == some (0, 0)) = true ∧
    (is.all fun i => meets s0 i fun c => ((s0.beginIssue c.id).hearthOf c.id c.w) == none) = true ∧ clear s (.mxz hn 1 .zero 0 false) = true ∧
    meets s (.mxld hp 1 (.v 4) 9 .f32 0) (fun c => (c.s 9).toNat == 512 && Claims.raw c (.v 4) 2 0 == 0) = true ∧ clear s (.mxld hp 1 (.v 4) 8 .f32 0) = true ∧
    mmaMisaligned 8192 0 0 0 0 false = none ∧ mmaMisaligned 8192 8 0 0 0 false = some 8 ∧
    ((s.modHearth (0, 0) fun h => h.modTile 0 fun t => { t with owner := some ⟨0, 0, 5⟩ }).hearth (0, 0)).tile 0 = { owner := some ⟨0, 0, 5⟩ } := by
  decide +kernel
/-- HearthQueues: an operation of each kind at the head, begun and not; a tile with an uncorrectable cell; a hearth of a wave that is not resident. -/
theorem test_meets_HearthQueues :
    let head (m : MxOp) : Bool := match (hq1 m id).op 1 with
      | some o => (hq1 m id).outboundClear o && (hq1 m id).mxRuns o && ((hq1 m id).hearth (0, 0)).queue == [m]
      | none => false
    ([{ id := 1, tok := 1, tile := 0, kind := .z .pinf false }, { id := 1, tok := 1, tile := 0, kind := .z .zero true, begun := true },
      { id := 1, tok := 1, tile := 0, kind := .ld 0 512 .f32 }, { id := 1, tok := 1, tile := 0, kind := .mma 0 0 0 0 .plus false },
      { id := 1, tok := 1, tile := 0, kind := .st 0 512 .f32 .rn true }] : List MxOp).all head = true ∧
    (((hq1 { id := 1, tok := 1, tile := 0, kind := .st 0 512 .f32 .rn true } fun h => h.modTile 0 fun t => { t with bad := [5] }).hearth (0, 0)).tile 0).bad = [5] ∧
    (let s := (hq1 { id := 1, tok := 1, tile := 0, kind := .ld 0 512 .f32 } fun h => h.modTile 0 fun t => { t with owner := some w0 }).modWave w0 fun w =>
        { w with resident := false };
      s.quiescing (0, 0) = [w0] ∧ ((s.hearth (0, 0)).tile 0).owner = some w0) ∧
    (let m : MxOp := { id := 1, tok := 1, tile := 0, kind := .mma 1024 2048 4096 0 .plus false, begun := true };
      let s := (hq1 m id).modWave w0 fun w => { w with dbg := true };
      s.quiescing (0, 0) = [w0] ∧ (s.op 1).map Op.wave = some w0 ∧ m.fed < 1 ∧ ((s.hearth (0, 0)).queue.filter (s.saves [w0])) = [m] ∧
      (match s.op 1 with | some o => (match s.mmaRun (0, 0) m o (some 1) with | .error _ => true | .ok _ => false) | none => false) = true) ∧
    ((hq1 { id := 1, tok := 1, tile := 0, kind := .ld 0 512 .f32 } id).quiescing (0, 0) = []) := by decide +kernel
/-- HearthCompletions: an MMA whose format block is bad and one of no rows; an MXLD and an MXST whose image translates and whose image does not; a matrix trap
that is due. -/
theorem test_meets_HearthCompletions :
    let m (k : MxKind) : MxOp := { id := 1, tok := 1, tile := 0, kind := k, begun := true, cells := some [] }
    let s (k : MxKind) (sh : Share) : State := { (hq1 (m k) id).modBlock 0 0 fun b => { b with shares := [sh, {}] } with spaces := sm.spaces }
    let fmt : Share := { bytes := [(0, 10), (1, 10), (4, 64), (9, 1)] }
    let at_ (k : MxKind) (sh : Share) (p : State → Op → Bool) : Bool := match (s k sh).op 1 with | some o => p (s k sh) o | none => false
    at_ (.mma 1024 2048 4096 0 .plus true) {} (fun s o => match s.mmaRun (0, 0) (m (.mma 1024 2048 4096 0 .plus true)) o none with | .error _ => true | _ => false) = true ∧
    at_ (.mma 1024 2048 4096 0 .plus true) fmt (fun s o => match s.mmaRun (0, 0) (m (.mma 1024 2048 4096 0 .plus true)) o none with | .ok _ => true | _ => false) = true ∧
    at_ (.ld 0 512 .f32) {} (fun s o => (s.imageFault o (imageRuns 0 512 .f32) needR true).isNone && !s.imageWaits o (imageRuns 0 512 .f32) needR) = true ∧
    at_ (.ld (2 ^ 21) 512 .f32) {} (fun s o => (s.imageFault o (imageRuns (2 ^ 21) 512 .f32) needR true).isSome) = true ∧
    at_ (.st 0 512 .f32 .rn false) {} (fun s o => (s.imageFault o (imageRuns 0 512 .f32) needW false).isNone && !s.imageWaits o (imageRuns 0 512 .f32) needW) = true ∧
    (let w := { wave0 with due := [⟨.matrix, {}, 0, 0, false, true, none⟩] }; w.runs = true ∧ w.hand = none ∧ w.matrixDue.isSome = true ∧ w.lanes ≠ 0) := by
  decide +kernel

/-! Launches, waves, registers and messages. -/

/-- LaunchAndVregs: LAUNCH at a good address and a bad one; VREGS to no size, to fewer registers, to as many, to more that can and cannot be had; a growth
that waits; an evicted wave. -/
theorem test_meets_LaunchAndVregs :
    let s (v n : Nat) : State := mw fun w => { w with valloc := v, sregs := sset 0 [] 9 (BitVec.ofNat 32 n) }
    let at_ (v n : Nat) (p : Ctx → Bool) : Bool := meets (s v n) (.vregs hp 2 (.s 9) 5) fun c => c.sel != 0 && Claims.sraw c (.s 9) 1 == n && p c
    meets s0 (.launch hp 2 4 none) (fun c => c.sel != 0 && (c.sPair 4).toNat % 256 == 0) = true ∧ clear s0 (.launch hn 2 4 (some 3)) = true ∧
    meets (mw fun w => { w with sregs := [(4, 8)] }) (.launch hp 2 4 none) (fun c => (c.sPair 4).toNat % 256 == 8) = true ∧ clear s0 (.vregs hn 2 (.i 16) 5) = true ∧
    at_ 16 12 (fun _ => true) = true ∧ at_ 16 16 (fun c => c.w.valloc == 16) = true ∧ at_ 16 8 (fun c => c.w.valloc == 16) = true ∧
    at_ 16 24 (fun c => decide (regLines c.w.width 24 c.w.salloc ≤ 2048 * ((s 16 24).core c.w.core).rcache) &&
      ((s 16 24).growPages w0 c.w 24).isSome &&
      ((s 16 24).grow w0 24).isSome) = true ∧
    (let t := (s 16 24).modGrid 0 fun g => { g with rec_ := { g.rec_ with ctxLen := 0 } };
      meets t (.vregs hp 2 (.s 9) 5) (fun c => (t.takePages 0 (pagesOf (waveImageBytes c.w.width 24 - t.ownBytes w0 c.w) - c.w.gpages.length)).isNone) = true) ∧
    (let t := (s 16 24).modWave w0 fun w => { w with pages := List.replicate 448 0 };
      meets t (.vregs hp 2 (.s 9) 5) (fun c => decide (448 < c.w.pages.length + (pagesOf (waveImageBytes c.w.width 24 - t.ownBytes w0 c.w) - c.w.gpages.length))) = true) ∧
    (let w := wave0.modSplit 0 fun x => { x with p1 := { x.p1 with wait := some (.growth 24 2 9) } }; w.waitsOf 0 = [.growth 24 2 9]) ∧
    s0.growGoes w0 24 = true ∧ s0.growRefused w0 wave0 100000 = true ∧ s0.growGoes w0 100000 = true ∧ (s0.grow w0 100000).isNone = true ∧
    (let t := (s 16 24).setWave ⟨0, 0, 1⟩ { wave0 with slot := 5, valloc := 100000 };
      meets t (.vregs hp 2 (.s 9) 5) (fun c => (t.growPages w0 c.w 24).isSome && (t.grow w0 24).isNone) = true ∧ t.growGoes w0 24 = false) ∧
    (let t := mw fun w => { w with evicted := true }; (t.wave w0).map (fun w => (w.evicted, w.resident, w.wantsIssue, decide (w.reserve ≤ t.regFree w.core))) =
      some (true, true, true, true)) := by decide +kernel

/-- The bytes of a launch record: one block of one wave of 8 lanes, 16 vector and 8 scalar registers,
repeatable, with a class and a carve. -/
def recBytes (cls rc pan share : Byte) : List Byte :=
  (List.range 256).map fun k => sget 0 [(0x18, 64), (0x1C, 1), (0x20, 1), (0x22, 1), (0x24, 8), (0x26, 8), (0x27, 2), (0x28, 1), (0x29, rc), (0x2A, pan),
    (0x2B, cls), (0x2C, share), (0x2D, 1)] k
/-- The record of those bytes. -/
def recOf (cls rc pan share : Byte) : Record := match parseRecord (recBytes cls rc pan share) none with | .ok r => r | .error _ => probeRecord
/-- `s0` in session 1, with a second launch that waits for admission. -/
def sl (r : Record) : State :=
  { s0 with sessions := s0.sessions ++ [(1, { rings := none, peer := some (1, 2), space := 0, cls := 1 })], nextGrid := 2, nextSession := 2
            grids := (s0.grids.map fun g => (g.1, { g.2 with session := 1, cls := 3 })) ++
              [(1, { session := 1, seq := 2, rec_ := r, depth := 0, cls := 0, parent := none, tag := 0, deps := [], met := some 0 })] }
/-- LaunchAcceptance: an operation in flight, at depth 10 and below; addresses that translate and do not; a good record, one that is not, one of a class
too low, and one that can never run; a launch that waits for another. -/
theorem test_meets_LaunchAcceptance :
    (match (smo (.launch 0 none 4)).op 1 with
      | some o => (smo (.launch 0 none 4)).outboundClear o && decide ((smo (.launch 0 none 4)).seek o o.space 0 needR = .ok (2 ^ 30)) &&
          decide ((smo (.launch 0 none 4)).seek o o.space (2 ^ 30) needR = .fail) && (smo (.launch 0 none 4)).lineUp (2 ^ 23)
      | none => false) = true ∧
    (recBytes 1 6 3 1).length = 256 ∧ (match parseRecord (recBytes 1 6 3 1) none with | .ok r => decide (r.cls = 1) && (s0.never r).isNone | .error _ => false) = true ∧
    (match parseRecord (recBytes 1 6 3 1) (some 0x81) with | .ok r => decide (r.entry = 0x81) | .error _ => false) = true ∧
    (match parseRecord (recBytes 1 2 3 1) none with | .ok _ => false | .error o => o == 0x29) = true ∧ (recOf 0 6 3 1).cls < 1 ∧
    (s0.never { recOf 1 6 3 1 with ctxLen := 0 }).isSome = true ∧
    ((sl probeRecord).modGrid 1 fun g => { g with met := none, deps := [7] }).grid 7 = none ∧ (tget (sl probeRecord).sessions 1).isSome = true := by decide +kernel
/-- AdmissionAndPreemption: a group that is placed; one that no position takes, for which another is pre-empted; a slice that has run; cores to carve. -/
theorem test_meets_AdmissionAndPreemption :
    let a := sl (recOf 0 6 3 1)
    let b := (sl (recOf 0 5 4 128)).modCore ⟨0, 0⟩ fun k => { k with rcache := 5, pantry := 4, drain := some 1 }
    let c := sl (recOf 0 5 4 1)
    a.turn ⟨1, 0, false⟩ = true ∧ (a.placeWhole ⟨1, 0, false⟩ 0 [2]).isSome = true ∧ (a.admitGroup 1 0 0 [2]).isSome = true ∧
    b.stuck = [⟨1, 0, false⟩] ∧ b.victimFor 0 0 ⟨1, 0, false⟩ = true ∧ ((b.group 0 0).map Group.resident) = some true ∧
    ({ b with now := 4000000 } : State).sliceOf 0 = 4000000 ∧ ((b.group 0 0).map fun k => (k.expired, k.since)) = some (false, 0) ∧ b.anyDbg 0 0 = false ∧
    b.clsOf 1 < b.clsOf 0 ∧ c.stuck = [⟨1, 0, false⟩] ∧ legalHomes 1 1 [2] = true ∧ c.inService 0 2 = true ∧ c.wavesOn ⟨0, 2⟩ = [] ∧ c.quiescing (0, 1) = [] ∧
    onDie 0 (coresAt 1 [2]) = [⟨0, 2⟩] ∧ (c.core ⟨0, 2⟩).rcache ≠ (recOf 0 5 4 1).rcache ∧ c.turn ⟨1, 0, false⟩ = true ∧
    c.stuck.find? (fun x => x.g == 1 && c.stuck.all fun y => y.g != 1 || !c.before y x) = some ⟨1, 0, false⟩ ∧ (recOf 0 5 4 1).usesGrid = false ∧
    (c.cores.all fun k => k.2.drain.isNone) = true ∧ b.isWaiting 1 = true ∧ (b.core ⟨0, 0⟩).drain = some 1 ∧
    (let d := sl (recOf 0 5 4 128);
      d.stuck.find? (fun x => x.g == 1 && d.stuck.all fun y => y.g != 1 || !d.before y x) = some ⟨1, 0, false⟩ ∧ legalHomes 1 1 [0] = true ∧
      d.coreEmpty ⟨0, 0⟩ = false ∧ d.mayDrain 1 0 (recOf 0 5 4 128) [⟨0, 0⟩] = true ∧ d.mayDrain 1 0 (recOf 0 5 4 128) [⟨0, 99⟩] = false) := by decide +kernel
/-- R38, R101: which homes the blocks of a group may have, and how many groups of three blocks a cluster of 8 cores holds with 2 blocks a core. -/
theorem test_homes : legalHomes 1 3 [5, 2, 7] = true ∧ legalHomes 1 2 [7, 8] = false ∧ legalHomes 2 2 [4, 0] = true ∧ legalHomes 2 2 [4, 3] = false ∧
    legalHomes 1 2 [3, 3] = false ∧ coresAt 2 [4, 0] = [4, 5, 0, 1] ∧ groupsIn 3 2 8 = 5 := by decide
/-- WaveAndGridEnds: a wave whose lanes have ended; a grid whose block has; a wave parked for a context page. -/
theorem test_meets_WaveAndGridEnds :
    (let s := mw fun w => { w with splits := w.splits.map fun _ => {} }; ((s.wave w0).map fun w => s.mayEnd w0 w) = some true ∧ (s.waves.map Prod.fst).Nodup) ∧
    ((s0.wave w0).map fun w => s0.mayEnd w0 w) = some false ∧
    (let x : Session := { rings := none, peer := some (1, 2), space := 0, cls := 1 };
      let r : Reply := { session := 1, caller := none, tag := 0, status := 0, result := [] };
      let s (n : Nat) : State := { s0 with sessions := [(1, { x with closing := some r, launches := n })] };
      x.closing = none ∧ ((tget (s 0).sessions 1).bind Session.closing) = some r ∧ (s 0).heldReplies = [] ∧ (s 0).copies = [] ∧
      ((s 1).closeIfDone 1).sessions.length = 1 ∧ ((s 0).closeIfDone 1).sessions = []) ∧
    (let s := (sl probeRecord).modGrid 1 fun g => { g with ended := [0] };
      ((s.grid 1).map fun g => g.ended.length == g.rec_.nblocks) = some true ∧ s.ops = [] ∧ (s.grids.all fun y => y.2.parent != some 1) = true ∧
      (s.cores.all fun k => k.2.evq == []) = true) ∧
    (let w := { wave0 with ctxPark := some 3 }; w.ctxPark = some 3 ∧ w.dbg = false ∧ ({ w with dbg := true }).ctxPark = some 3 ∧ s0.spillLack w.core = 0) ∧
    (let s := mw fun w => { w with wbuf := List.replicate 2049 { space := 0, va := 1, pa := 1, bytes := [] } };
      s.spillLack ⟨0, 0⟩ = 1 ∧ ((s.wave w0).map fun w => (s.spillCores w0 w).map s.spillLack) = some [1] ∧
      (s0.spillCores w0 wave0).map s0.spillLack = [0] ∧ ((s.wave w0).bind fun w => s.wavePages w0 w 1).isSome = true ∧
      (let t := s.modGrid 0 fun g => { g with rec_ := { g.rec_ with ctxLen := 0 } }; ((t.wave w0).bind fun w => t.wavePages w0 w 1).isNone = true)) := by
  decide +kernel
/-- SpecialRegisters: in the handler of a wave, which may read and write them all. -/
theorem test_meets_SpecialRegisters :
    ([.mfs hp (.s 4) 4, .mfs hp (.s 4) 0x11, .mts hp (.s 3) 1, .mtsExcctl hp (.s 3), .mtsExccount hp (.i 5), .mtsExcwin hp (.s 3), .mtsFaultmask hp (.s 3),
      .mtsTrappc hp (.s 4)] : List Instr).all (clear (sh id)) = true ∧ clear s0 (.mfs hp (.v 4) 0) = true ∧
    ({} : Core).exc.length = 6 ∧ (s0.core ⟨0, 0⟩).evq = [] ∧ ((s0.modCore ⟨0, 0⟩ fun k => { k with excWrites := [⟨0, 0x19, 1, 5⟩] }).core ⟨0, 0⟩).excWrites ≠ [] := by
  decide +kernel
/-- MessagesAndXcinv: in a handler; a message in flight; a mailbox with and without space, and a die that is down. -/
theorem test_meets_MessagesAndXcinv :
    ([.msgs hp 2 16 (.s 3), .msgr hp 2 16] : List Instr).all (clear (sh id)) = true ∧ clear (sh id) (.xcinv hp 2 4 1) = true ∧
    clear (mw fun w => { w with firmware := true }) (.xcinv hp 2 4 1) = true ∧
    (match (so (.msgs 1 ⟨0, []⟩ 4)).op 1 with | some o => (so (.msgs 1 ⟨0, []⟩ 4)).outboundClear o | none => false) = true ∧
    ((so (.xcinv 0 0 4096 1 4)).op 1).isSome = true ∧ s0.dies.length = 4 ∧ (s0.die 1).boxes.length = 4 ∧ s0.up 1 = true ∧
    (s0.modDie 1 fun d => { d with online := false }).up 1 = false ∧
    16 ≤ (((s0.modDie 1 fun d => { d with boxes := lmod d.boxes 2 fun _ => List.replicate 16 ⟨0, []⟩ }).die 1).boxes.getD 2 []).length := by decide +kernel

/-! Fetches, translation, errors and the host. -/

/-- FetchAndLateTraps: a line that is there, one found uncorrectable, one to fetch, one that does not translate, one with a bad line, one whose trailer is not
zero; an overdue wave; a faulted OPEN in either form. -/
theorem test_meets_FetchAndLateTraps :
    let s : State := { sm with cores := [] }
    let at_ (s : State) (p : Ctx → Bool) : Bool := match s.issuer with | some c => p c | none => false
    at_ s0 (fun c => decide ((((s0.core c.w.core).codeLine (s0.spaceOf 0) c.pc).map Prod.snd) = some false)) = true ∧
    at_ s (fun c => ((s.core c.w.core).codeLine 0 c.pc).isNone && decide (s.look 0 0 0 needX = .ok (2 ^ 30)) && s.lineUp (2 ^ 23)) = true ∧
    ((s.viaL2 0 (2 ^ 23) 2).2.bytes = [] ∧ tget s.l2 (0, 2 ^ 23) = none) ∧
    (let t : State := { s with l2 := [((0, 2 ^ 23), { bytes := [], rrpv := 3, pend := [⟨1, 0, 2 ^ 23, [], true⟩] })] };
      (tget t.l2 (0, 2 ^ 23)).isSome = true ∧ t.l2Hit 0 (2 ^ 23) = none) ∧
    (let t : State := { s with l2 := [((0, 2 ^ 23), { bytes := [(121, 1)], rrpv := 3 })] };
      sget 0 (t.viaL2 0 (2 ^ 23) 2).2.bytes 121 ≠ 0 ∧ (tget t.l2 (0, 2 ^ 23)).isSome = true) ∧
    ({ s0 with cores := [] } : State).look 0 0 0 needX = .fail ∧ ({ s with badLines := [2 ^ 23] } : State).lineUp (2 ^ 23) = true ∧
    ({ s with badLines := [2 ^ 23] } : State).lineBad 0 (2 ^ 23) = true ∧
    ({ s with badLines := [2 ^ 23], l2 := [((0, 2 ^ 23), { bytes := [], rrpv := 3 })] } : State).lineBad 0 (2 ^ 23) = false ∧
    (let w := { wave0 with readySince := some 0 }; w.resident = true ∧ w.overdue = none ∧ w.readySince = some 0) ∧
    (let w := wave0.modSplit 0 fun x => { x with st := .faulted }; w.runs = true ∧ w.hand = none ∧ w.nextPath = none) ∧
    (let w := wave0.modSplit 0 fun x => { x with p1 := { x.p1 with wait := some (.openFault 3 8) } };
      w.runs = true ∧ w.nextPath = none ∧ (w.split 0).st = .running ∧ ((w.split 0).path false).wait = some (.openFault 3 8)) := by decide +kernel
/-- TranslationEvents: an OPEN that needs a line, one found uncorrectable and one of a die that is down; a page request outstanding, with an OPEN that waits for
it; a register line that is away. -/
theorem test_meets_TranslationEvents :
    let x : OpenOp := { reopen := false, win := 1, lanes := 1, todo := [(0, 4096)], lines := [(0, 256, 2)], need := [2], st := 4, pd := 2, write := true, rd := 1, deadline := 9 }
    ((so (.open x)).op 1).isSome = true ∧ (match (so (.open x)).op 1 with | some o => (so (.open x)).hasEntry o (some 2) | none => false) = true ∧ 2 ∈ x.need ∧
    (match (so (.matrix 1)).op 1 with
      | some o => let s := hq1 { id := 1, tok := 1, tile := 0, kind := .z .pinf false } id; s.onPage o 1 && o.openOf.isNone
      | none => false) = true ∧ (s0.dies.map fun d => d.pri.length).sum < 512 ∧ s0.priWait = [] ∧
    512 ≤ ((s0.modDie 0 fun d => { d with pri := (List.range 512).map fun k => (1, k) }).dies.map fun d => d.pri.length).sum ∧ tget s0.owned 2 = none ∧ s0.lineUp 2 = true ∧
    ({ s0 with badLines := [2] } : State).lineBad 0 2 = true ∧ s0.lineBad 0 2 = false ∧ (s0.waves.all fun x => !x.2.rebinding) = true ∧ (s0.modDie 0 fun d => { d with online := false }).lineUp 2 = false ∧
    ((s0.modDie 0 fun d => { d with pri := [(0, 1)] }).die 0).pri = [(0, 1)] ∧ (x.todo.any fun y => y.2.toNat / 4096 == 1) = true ∧
    (tget s0.cores ⟨0, 0⟩).isSome = true ∧ s0.ops = [] ∧ ((s0.core ⟨0, 0⟩).store.map Prod.fst).Nodup ∧ sm.onRange 0 0 4096 (2 ^ 23) = true ∧
    (let w := { wave0 with away := [2] }; w.resident = true ∧ w.evicted = false ∧ 2 ∈ w.away) := by decide +kernel
/-- ReliabilityEvents: a counting window that has ended and one that has not; a counter at its threshold and below it; every part that may fail. -/
theorem test_meets_ReliabilityEvents :
    let k : Core := { exc := [{ window := 5 }, {}, {}, {}, {}, {}] }
    (k.exc.getD 0 {}).window ≠ 0 ∧ (k.exc.getD 0 {}).started + (k.exc.getD 0 {}).window ≤ 5 ∧ (k.exc.getD 1 {}).window = 0 ∧ ceCounterOk 0 1 = true ∧
    (let x := ((s0.modDie 0 fun d => { d with ce := [(1, { count := 2, threshold := 2, window := 7 })] }).die 0).counter 1;
      x.armed = true ∧ x.count = x.threshold ∧ x.threshold < 0xFFFF ∧ x.window ≠ 0) ∧ ((s0.die 0).counter 1).count ≠ ((s0.die 0).counter 1).threshold ∧
    (s0.block 0 0).isSome = true ∧ (s0.group 0 0).isSome = true ∧ (tget (s0.core ⟨0, 0⟩).fetch (0, 0)).isSome = true ∧ tget (s0.core ⟨0, 1⟩).fetch (0, 0) = none ∧
    (s0.hearth (0, 0)).tiles.length = 4 ∧ s0.dies.length = 4 ∧
    (((s0.modBlock 0 0 fun b => { b with reds := [(⟨0, none, 0, 1, 1, 0, .add, .n32, 3, 0, false, false, {}, false⟩ : RedRec)] }).block 0 0).bind fun b => b.reds[0]?).isSome = true ∧ s0.ops = [] ∧ ((s0.die 0).ats.map Prod.fst).Nodup := by decide +kernel
/-- The bytes of a header that has a code. -/
def bytesOfHdr (code : Byte) : List Byte := [code, 1] ++ List.replicate 30 0
/-- HostEvents: a write that fits the letterbox and one that does not; a frame of a peer whose reply has not come; a session with a held reply and a ring that has
space, and one that is full. -/
theorem test_meets_HostEvents :
    let f : PeerFrame := { id := 5, addr := 1, port := 2, header := [0x40], bytes := [] }
    let r : Reply := { session := 1, caller := none, tag := 0, status := 0, result := [] }
    let g : Ring := { spec := ⟨0, 64, 8192, 1⟩ }
    0 + [1, 2].length ≤ 65536 ∧ 65536 < 65535 + [1, 2].length ∧ f.awaits = true ∧ f.id = 5 ∧ r.session = 1 ∧ s0.ringFull g = false ∧
    s0.ringFull { g with prod := 64 } = true ∧ ((tget (sl probeRecord).sessions 1).map Session.closing) = some none ∧ s0.frameAt 3 = none ∧
    (let h := hdrOfBytes (bytesOfHdr 0x40); h.code = 0x40) ∧ hdrBad (hdrOfBytes (bytesOfHdr 4)) = none ∧ hdrBad (hdrOfBytes (bytesOfHdr 0)) = some 0 ∧
    (let k : HostCopy := { id := 1, reply := r, die := 0, space := 0, src := .device 0, dst := .remote 1 2 3 0, bytes := 8, frame := some (5, 8) };
      k.frame = some (5, 8)) := by decide +kernel

/-- A header of a frame. -/
def hdr (code : Byte) (session seq : Word) : FrameHdr := { code := code, version := 1, len := 256, session := session, tag := 9, seq := seq, resv := 0 }
/-- A frame of a peer, next in its session. -/
def frm (code : Byte) (session : Word) : Caller := .peer 1 2 (hdr code session 1) (recBytes 1 6 3 1)
/-- `sl` with the page of `sm` mapped. -/
def ss : State := { sl probeRecord with spaces := sm.spaces }
/-- Claims.Call, for the calls of a session. -/
theorem test_meets_Call_session : ∀ code ∈ ([2, 3, 4, 5, 6, 7, 8, 0x10, 0x11, 0x12, 0x13, 0x14, 0x40] : List Byte),
    ∃ t x r, Claims.Call ss (frm code 1) code.toNat t x r := by
  intro code h
  simp only [List.mem_cons, List.not_mem_nil, or_false] at h
  rcases h with rfl | rfl | rfl | rfl | rfl | rfl | rfl | rfl | rfl | rfl | rfl | rfl | rfl <;>
    exact ⟨_, _, _, _, rfl, rfl, by decide +kernel, rfl, by decide +kernel, rfl, rfl, by decide +kernel, by decide +kernel, rfl, rfl⟩
/-- Claims.Call, for the management calls. -/
theorem test_meets_Call_management : ∀ code ∈ ([0x20, 0x21, 0x22, 0x23, 0x24, 0x25, 0x26, 0x27, 0x28, 0x29, 0x2A] : List Byte),
    ∃ t x r, Claims.Call ss (frm code 0) code.toNat t x r := by
  intro code h
  simp only [List.mem_cons, List.not_mem_nil, or_false] at h
  rcases h with rfl | rfl | rfl | rfl | rfl | rfl | rfl | rfl | rfl | rfl | rfl <;>
    exact ⟨_, _, _, _, rfl, rfl, by decide +kernel, rfl, by decide +kernel, rfl, rfl, by decide +kernel, by decide +kernel, rfl, rfl⟩
/-- What a taken frame holds that has a session and a number. -/
def hdrBytesAt (session seq : Byte) : Cells := [(4, session), (0x10, seq)]
/-- CallFraming: a served frame; a malformed header; an unknown session; a repeat; a number that is neither the latest nor the next. -/
theorem test_meets_CallFraming :
    ({ s0 with frames := [{ slot := 3, bytes := [], served := true }] } : State).wasServed (.slot 3) = true ∧
    (({ s0 with frames := [{ slot := 3, bytes := [], served := true }] } : State).hdrOf (.slot 3)).isSome = true ∧
    hdrBad { hdr 4 1 1 with version := 2 } = some 1 ∧ hdrBad (hdr 4 1 1) = none ∧ ss.fwWaits = false ∧ (tget ss.sessions 7).isNone = true ∧
    ss.earlierFrame 1 0 5 = false ∧ Claims.call (.unmap (frm 5 1) 0 4096 1) = some (frm 5 1, 5) ∧
    (let x : Session := { rings := none, peer := some (1, 2), space := 0, cls := 1, fseq := 4, last := some ⟨1, none, 0, 0, 0, []⟩ };
      (hdr 4 1 4).seq = x.fseq ∧ x.last.isSome = true ∧ ({ x with begun := true } : Session).begun = true ∧ x.begun = false) ∧
    ({ ss with frames := [{ slot := 3, bytes := hdrBytesAt 1 1 }] } : State).earlierFrame 1 0 5 = true ∧ ss.rewritten (frm 4 1) = false := by decide +kernel
/-- SessionCalls: SESSION_OPEN, and what its other clauses ask of their calls: ranges, slices, lengths, pages and copies that are good, and that are not. -/
theorem test_meets_SessionCalls :
    hdrBad (hdr 1 0 0) = none ∧ ss.opens = [] ∧ callerSender (frm 1 0) ≠ none ∧ ringSpecOk ⟨4096, 64, 0, 5⟩ = true ∧ ringSpecOk ⟨1, 64, 0, 5⟩ = false ∧
    (ss.payloadOf (frm 3 1)).length = 256 ∧ rangeOk (2 ^ 21) 4096 2 = true ∧ rangeOk 1 4096 2 = false ∧
    (ss.pages 0).all (fun p => !runsCross (2 ^ 21) 8192 p.va p.size && sizeOk p.size && p.va % p.size == 0) = true ∧
    (ss.pages 0).any (fun p => runsCross 0 8192 p.va p.size) = true ∧ ((ss.pages 0).find? fun p => p.va == 0).isSome = true ∧ isHost (2 ^ 30) = false ∧
    homeOf (2 ^ 30) = some 0 ∧ homeOf dieSpan = some 1 ∧ homeOf (dieSpan + 2 ^ 21 - 1) = some 1 ∧ ss.mapped dieSpan (2 ^ 21) = false ∧ ss.up 1 = true ∧
    (let k (src : CopyEnd) (done : Nat) : HostCopy :=
        { id := 9, reply := ⟨1, none, 0, 0, 0, []⟩, die := 0, space := 0, src := src, dst := .device 4096, bytes := 8, done := done };
      let s : State := { ss with copies := [k (.device 0) 0] };
      s.copies.find? (fun x => x.id == 9) = some (k (.device 0) 0) ∧ (k (.device 0) 8).bytes ≤ (k (.device 0) 8).done ∧
      (s.copyEnd 0 0 [] (.device 0) 0 needR == .at (2 ^ 30)) = true ∧ (s.copyEnd 0 0 [] (.device 4096) 0 needAny == .at (2 ^ 30 + 4096)) = true ∧
      s.copyFault (.at (2 ^ 30)) (.at (2 ^ 30 + 4096)) 0 4096 0 8 = none ∧ (s.copyFault .fail (.at (2 ^ 30 + 4096)) (2 ^ 30) 4096 0 8).isSome = true ∧
      s.op 9 = none ∧ tget (s.own 9 7).owned 7 = some 9 ∧ s.copyLines (k (.device 0) 0) ≠ [] ∧
      ((List.range 8).all fun j => !s.copyClash 0 (.device 0) 8 (4096 + j) (2 ^ 30 + 4096 + j)) = true) ∧
    (runLines (2 ^ 30 + 4096) 2).all (fun l => ss.lineUp l) = true ∧
    (match ss.landData 0 0 4096 [1, 2] 2 0 with | .done _ none => true | _ => false) = true := by decide +kernel
/-- DebuggerCalls: a scope with and without waves; a wave that a debugger has halted; a wave that HALT has halted, and one halted in its handler. -/
theorem test_meets_DebuggerCalls :
    ss.scopeWaves (.grid 0) = [w0] ∧ ss.scopeWaves (.grid 9) = [] ∧ ({ wave0 with dbg := true } : Wave).stopped = true ∧ wave0.stopped = false ∧
    0 + 64 ≤ waveImageBytes wave0.width wave0.valloc ∧ pcOk 0x81 = true ∧ pcOk 0xA = false ∧
    ((sh fun w => { w with mode := .halted true 0 false }).wave w0).bind Wave.hand ≠ none ∧
    ({ wave0 with mode := .halted false 0 false } : Wave).pending = none ∧
    (let w := { wave0 with resident := false, dbg := true }; w.resident = false ∧ w.mode = .running) ∧
    wave0.resident = true ∧ wave0.mode = .running ∧ wave0.hand = none ∧ wave0.nextPath = some (0, false) ∧ (ss.grid 0).isSome = true ∧
    wave0.heldWord 0x1000 = some (wave0.sreg 0) ∧ ({ wave0 with away := [0] } : Wave).heldWord 0x1000 = none := by decide +kernel
/-- ManagementCalls: a core in service and one retired; dies up, down and in warm reset; a power change under way; a staged image. -/
theorem test_meets_ManagementCalls :
    ss.dies.length = 4 ∧ (5 ∉ (ss.die 1).retired) ∧ (5 ∈ ((ss.modDie 1 fun d => { d with retired := [5] }).die 1).retired) ∧ (ss.die 1).spares ≠ 0 ∧
    (ss.dies.all fun d => !d.resetting && d.staged.isNone) = true ∧ (ss.die 1).online = true ∧ (ss.hearths.map Prod.fst).Nodup ∧
    ((ss.modDie 1 fun d => { d with resetting := true }).die 1).resetting = true ∧ ((ss.modDie 1 fun d => { d with online := false }).die 1).online = false ∧
    ((ss.modDie 1 fun d => { d with toPower := some .idle }).die 1).toPower = some .idle ∧ ceCounterOk 1 16 = true ∧ 0 + 64 ≤ hostBase ∧
    (∀ d, d < 4 → (2#4).getLsbD d = true → ss.up d = true ∧ (ss.die d).staged = none) ∧ (2#4).getLsbD 1 = true ∧ ((ss.modDie 1 fun d => { d with staged := some [1] }).die 1).staged = some [1] ∧ ss.serving 1 = false ∧
    ({ ss with copies := [{ id := 9, reply := ⟨1, none, 0, 0, 0, []⟩, die := 1, space := 0, src := .device 0, dst := .device 4096, bytes := 8 }] } : State).serving 1 = true ∧
    64 % 64 = 0 ∧ 64 + 320 ≤ hostBase := by decide +kernel

/-! Results worked out by hand from the rules: one step each. -/

/-- A wave with values in some vector registers, the same in every lane, and in some scalars. -/
def sv (v s : List (Nat × Word)) : State :=
  mw fun w => { w with vregs := v.flatMap fun x => (List.range 8).map fun l => (64 * x.1 + l, x.2), sregs := s }
/-- The outstanding result of register `r` in a lane, with the clock at which it is due. -/
def out (i : Instr) (s : State) (r : RReg) (l : Nat) : Option (Word × Nat) :=
  match exec i s with
  | .next t => ((t.wave w0).bind fun w => w.lats.find? fun f => f.reg == r).bind fun f => (f.vals.find? fun v => v.1 == l).map fun v => (v.2, f.due)
  | _ => none
/-- What the wave of the small states has become. -/
def after (i : Instr) (s : State) (p : Wave → Bool) : Bool := leads i s fun t => match t.wave w0 with | some w => p w | none => false

/-- R321: the largest signed number plus 1 wraps, and saturates with .SAT. -/
theorem test_iadd_wraps : out (.iadd hp 1 (.v 2) (.i 1) .i32 false) (sv [(2, 0x7FFFFFFF)] []) (.v 1) 3 = some (0x80000000, 4) ∧
    out (.iadd hp 1 (.v 2) (.i 1) .i32 true) (sv [(2, 0x7FFFFFFF)] []) (.v 1) 3 = some (0x7FFFFFFF, 4) := by decide +kernel
/-- R321: the high half of -1 times 2. -/
theorem test_imulhi : out (.imulhi hp 1 (.v 2) (.i 2) .i32) (sv [(2, 0xFFFFFFFF)] []) (.v 1) 0 = some (0xFFFFFFFF, 4) ∧
    out (.imulhi hp 1 (.v 2) (.i 2) .n32) (sv [(2, 0xFFFFFFFF)] []) (.v 1) 0 = some (1, 4) := by decide +kernel
/-- R361, R353: a shift of the full width gives 0, or the sign; a rotation of it gives its source. -/
theorem test_shifts_full : out (.shl hp 1 (.v 2) (.i 32) .n32) (sv [(2, 5)] []) (.v 1) 0 = some (0, 4) ∧
    out (.shra hp 1 (.v 2) (.i 32) .i32) (sv [(2, 0x80000000)] []) (.v 1) 0 = some (0xFFFFFFFF, 4) ∧
    out (.rot hp 1 (.v 2) (.i 32) .n32 false) (sv [(2, 5)] []) (.v 1) 0 = some (5, 4) := by decide +kernel
/-- R333: exclusive or of three. -/
theorem test_lop3 : out (.lop3 hp 1 (.v 2) (.v 3) (.v 4) .n32 0x96) (sv [(2, 0xF0), (3, 0xCC), (4, 0xAA)] []) (.v 1) 0 = some (0x96, 4) := by decide +kernel
/-- R310: 1.0 + 2^-24 rounds to even, and up under .RU. -/
theorem test_fadd_rounds : out (.fadd hp 1 (.v 2) (.v 3) .rn false false) (sv [(2, 0x3F800000), (3, 0x33800000)] []) (.v 1) 0 = some (0x3F800000, 4) ∧
    out (.fadd hp 1 (.v 2) (.v 3) .ru false false) (sv [(2, 0x3F800000), (3, 0x33800000)] []) (.v 1) 0 = some (0x3F800001, 4) := by decide +kernel
/-- R313: the reciprocal of 3, and of +0.0. -/
theorem test_frcp : out (.frcp hp 1 (.v 2) .rn) (sv [(2, 0x40400000)] []) (.v 1) 0 = some (0x3EAAAAAB, 12) ∧
    out (.frcp hp 1 (.v 2) .rn) (sv [] []) (.v 1) 0 = some (0x7F800000, 12) := by decide +kernel
/-- R306: 2.5 to an integer rounds to even, and truncates under .RZ. -/
theorem test_cvt : out (.cvt hp 1 (.v 2) .i32 .f32 .rn false) (sv [(2, 0x40200000)] []) (.v 1) 0 = some (2, 4) ∧
    out (.cvt hp 1 (.v 2) .i32 .f32 .rz false) (sv [(2, 0xC0200000)] []) (.v 1) 0 = some (0xFFFFFFFE, 4) := by decide +kernel
/-- R362: the scalar class writes once, after 2 clocks, and with no lane selected not at all. -/
theorem test_sadd : out (.sadd hp 1 2 (.i 5) .i32) (sv [] [(2, 7)]) (.s 1) 0 = some (12, 2) ∧
    out (.sadd hn 1 2 (.i 5) .i32) (sv [] [(2, 7)]) (.s 1) 0 = none := by decide +kernel
/-- R360: with one up, lane 0 has no source and keeps its own value. -/
theorem test_shfl : (let s := mw fun w => { w with vregs := [(128, 10), (129, 11)] };
    out (.shfl hp 1 2 (.i 1) .n32 .up 0) s (.v 1) 1 = some (10, 6) ∧ out (.shfl hp 1 2 (.i 1) .n32 .up 0) s (.v 1) 0 = some (10, 6) ∧
    out (.shfl hp 1 2 (.i 1) .n32 .up 0) s (.p 0) 0 = some (0, 6)) := by decide +kernel
/-- R380: the sum of eight lanes. -/
theorem test_wred : out (.wred hp (.s 1) 2 .i32 .rn .add) (sv [(2, 3)] []) (.s 1) 0 = some (24, 12) := by decide +kernel
/-- R375: a ballot of the lanes in which p0 is true. -/
theorem test_vote : out (.vote hp .ballot (.s 1) 0) sq (.s 1) 0 = some (5, 4) := by decide +kernel
/-- R299, R81: a taken branch, and the stall count of its word. -/
theorem test_bra : after (.bra (hst 7) 5) s0 (fun w => (w.split 0).p1.pc == 5 && (w.split 0).p1.readyAt == 7) = true ∧
    after (.bra hn 5) s0 (fun w => (w.split 0).p1.pc == 1 && (w.split 0).p1.readyAt == 1) = true := by decide +kernel
/-- R30: BRA.DUAL of lanes 0 and 2 of eight. -/
theorem test_bra_dual : after (.braDual hq 0x10 0 9) sq (fun w => (w.split 0).p1.mask == 5 && ((w.split 0).p2.map fun p => (p.pc, p.mask)) == some (1, 0xFA)) =
    true := by decide +kernel
/-- R312: EXIT of every lane leaves none. -/
theorem test_exit : after (.exit hp) s0 (fun w => w.lanes == 0) = true := by decide +kernel
/-- R373, R256: TRAP starts the handler at the record's handler PC, with the next PC saved. -/
theorem test_trap : after (.trap hp 5) s0 (fun w => w.mode == .handler && (w.hand.map fun h => (h.path.pc, h.preds)) == some (0x80, 0) && w.trappc == 1 &&
    w.trapaddr == 5 && w.trapcause == 0x0B) = true := by decide +kernel
/-- R374: TRET returns to %trappc. -/
theorem test_tret : after (.tret hp) (sh fun w => { w with trappc := 4 }) (fun w => w.mode == .running && (w.split 0).st == .running && (w.split 0).p1.pc == 4) =
    true := by decide +kernel
/-- R81: the split of a TRAP and of a TRET with a stall count of 7 issues next 7 clocks later. -/
theorem test_trap_spacing : after (.trap (hst 7) 5) s0 (fun w => (w.hand.map fun h => h.path.readyAt) == some 7) = true ∧
    after (.tret (hst 7)) (sh fun w => { w with trappc := 4 }) (fun w => (w.split 0).p1.readyAt == 7) = true := by decide +kernel
/-- R91, R255: HALT outside handler mode is PRIV, sub-code 0. -/
theorem test_halt_priv : after (.halt hp) s0 (fun w => w.mode == .handler && w.trapcause.extractLsb' 0 8 == 2) = true := by decide +kernel
/-- R328, R329: a byte stored to the pantry; a misaligned word is a trap. -/
theorem test_stl : leads (.stl hp 1 (.s 2) 5 .n8 0) (sv [(1, 0x1FF)] [(2, 3)]) (fun t => sget 0 (t.share 0 0 0).bytes 8 == 0xFF) = true ∧
    after (.stl hp 1 (.s 2) 5 .n32 2) (sv [] []) (fun w => w.trapcause.extractLsb' 0 8 == 3) = true := by decide +kernel
/-- R129, R152: a store goes to the wave's store buffer; R130: through an unbound window it is WINDOW_CLOSED. -/
theorem test_stw : after (.stw hp 1 1 (.i 4) .n32 2 .nochk) ((sw bok).modWave w0 fun w => { w with vregs := [(64, 0x01020304)] })
      (fun w => (w.wbuf.map fun d => (d.va, d.pa, d.bytes.map Prod.fst)) == [(2, 2, [12, 13, 14, 15])]) = true ∧
    after (.stw hp 1 1 (.i 4) .n32 2 .nochk) s0 (fun w => w.trapcause.extractLsb' 0 8 == 4) = true := by decide +kernel
/-- R131, R165: a load of a line of which the wave has read a newer byte waits until the core has applied the update. -/
theorem test_ldw_waits : let s (f : List Floor) := (sw bok).modCore ⟨0, 0⟩ fun k =>
      { k with store := [(2, { bytes := [], rrpv := 0 })], updq := [{ seq := 4, home := 0, line := 2, bytes := [(8, 1)] }], floors := f }
    after (.ldw hp 1 1 (.i 4) .n32 2 .nochk) (s [⟨0, 0, some (0, 0), 264, 4⟩]) (fun w => (w.split 0).p1.pc == 0) = true ∧
    after (.ldw hp 1 1 (.i 4) .n32 2 .nochk) (s []) (fun w => (w.split 0).p1.pc == 1) = true := by decide +kernel
/-- R293: an ATOM.ADD at wave scope adds each of eight lanes once. -/
theorem test_atom_wave : leads (.red hp 1 (.const 4) 2 .n32 .add 0) ((sw bok).modWave w0 fun w => { w with vregs := (List.range 8).map fun l => (128 + l, 1) })
    (fun t => (t.block 0 0).map (fun b => b.reds.length) == some 8) = true := by decide +kernel
/-- R43: the only wave of its block arrives: the generation ends. -/
theorem test_arrive : leads (.arrive hp 2 ⟨1, 0⟩ (.i 1)) sb (fun t => (t.bar w0 ⟨1, 0⟩).gen == 1 && (t.wave w0).map (fun w => w.sreg 2) == some 0) = true := by
  decide +kernel
/-- R291: a count of 0 is a BARRIER trap. -/
theorem test_arrive_zero : after (.arrive hp 2 ⟨1, 0⟩ (.s 9)) sb (fun w => w.trapcause.extractLsb' 0 8 == 9) = true := by decide +kernel
/-- R377: VREGS of 12 is BAD_SIZE, with the allocation as its detail. -/
theorem test_vregs_bad : after (.vregs hp 2 (.s 9) 5) (sv [] [(9, 12)]) (fun w => w.sreg 2 == 0x10046) = true := by decide +kernel
/-- R334: %lane, and %width in a scalar. -/
theorem test_mfs : out (.mfs hp (.v 1) 0) s0 (.v 1) 6 = some (6, 4) ∧ out (.mfs hp (.s 1) 0x0A) s0 (.s 1) 0 = some (8, 2) := by decide +kernel
/-- R90, and the step: a NOP moves the PC on; an unassigned opcode is ILLEGAL, sub-code 2; a set reserved bit sub-code 1 or more, with its field. -/
theorem test_step : (match step s0 with | .next t => (t.wave w0).map (fun w => (w.split 0).p1.pc) == some 1 | _ => false) = true ∧
    (match step (State.reset.withFetchWord 96 0) with | .next t => (t.wave w0).map (fun w => w.trapcause.extractLsb' 0 16) == some 0x0201 | _ => false) = true := by
  decide +kernel
/-- What decodes is what runs: the probe's word. -/
theorem test_table_word : decodeTableWord 96 0x101C02802B00800001800000 = some (.iadd hp 10 (.v 10) (.i 0x201800) .i32 false) := by decide +kernel

end Sys2Proof.Tests
end

section
/-! PROOFS. The checks of a word (04 R90, steps 4 to 8), said once: what an operand slot accepts, and what the decoder answers for a word whose
fields pass steps 4 to 7. -/

namespace Sys2Proof

/-! Operand fields that the encoder writes (R76, R77). -/

@[simp] theorem kindOf_eS (r : BitVec 7) : kindOf (eS r) = .s := by
  simp only [kindOf, eS]
  rw [extract_append_high _ _ _ _ (by decide)]
  rfl
@[simp] theorem kindOf_eI (x : BitVec 10) : kindOf (eI x) = .i := by
  simp only [kindOf, eI]
  rw [extract_append_high _ _ _ _ (by decide), extract_whole]
  rfl

/-- A slot accepts an operand field: the field passes steps 4, 5 and 7 of R90. -/
def Slot.Accepts (sl : Slot) (x : BitVec 12) : Prop := resBad x sl = false ∧ kindBad x sl = false ∧ pairBad x sl = false

/-- An unused field is 0x000. -/
theorem Slot.accepts_unused : Slot.Accepts {} 0 := ⟨rfl, rfl, rfl⟩

/-- A slot that takes scalars takes each one whose index is a multiple of the slot's. -/
theorem Slot.accepts_eS {sl : Slot} {r : BitVec 7} (hk : .s ∈ sl.kinds) (hr : alignedTo sl.mult r.toNat = true) :
    sl.Accepts (eS r) := by
  have hne : sl.kinds ≠ [] := List.ne_nil_of_mem hk
  have hz : (eS r).extractLsb' 7 3 = 0 := by
    rw [eS, extract_append_high _ _ _ _ (by decide)]
    rfl
  have hi : (eS r).extractLsb' 0 7 = r := by rw [eS, extract_append_low _ _ _ _ (by decide), extract_whole]
  exact ⟨by simp [resBad, hne, indexZeroOk, hz], by simp [kindBad, hk], by simp [pairBad, hi, hr]⟩

/-- A slot that takes immediates takes each one. -/
theorem Slot.accepts_eI {sl : Slot} (x : BitVec 10) (hk : .i ∈ sl.kinds) : sl.Accepts (eI x) := by
  have hne : sl.kinds ≠ [] := List.ne_nil_of_mem hk
  exact ⟨by simp [resBad, hne, indexZeroOk], by simp [kindBad, hk], by simp [pairBad]⟩

theorem slS_accepts {n : Nat} {r : BitVec 7} (h : r.toNat % n = 0) : (slS n).Accepts (eS r) :=
  Slot.accepts_eS (List.mem_singleton_self _) (beq_iff_eq.mpr h)
theorem slI_accepts (x : BitVec 10) : slI.Accepts (eI x) := Slot.accepts_eI x (List.mem_singleton_self _)
theorem slSI_accepts_eI (n : Nat) (x : BitVec 10) : (slSI n).Accepts (eI x) :=
  Slot.accepts_eI x (List.mem_cons_of_mem _ (List.mem_singleton_self _))

/-! The checks of a word. -/

/-- The fields of a word pass steps 4 to 7 of R90 for an entry without a third source: each slot accepts its field, no bit is set
that the entry leaves unassigned (an immediate of operand B takes the whole immediate field), and the modifier values are allowed. -/
structure Fields.Passes (f : Fields) (m : Fmt) : Prop where
  d    : m.d.Accepts f.d
  a    : m.a.Accepts f.a
  b    : m.b.Accepts f.b
  c    : m.c = none
  res  : m.res = none
  mods : f.mods &&& ~~~(BitVec.ofNat 14 m.mm) = 0
  imm  : (.i ∈ m.b.kinds ∧ kindOf f.b = .i) ∨ f.imm &&& ~~~(BitVec.ofNat 20 m.im) = 0
  hres : f.hres = 0
  mok  : m.mok = true

/-- What passes steps 4 to 7 fails at the first failure of step 8, if there is one. -/
theorem Fields.Passes.checkWord_eq {f : Fields} {m : Fmt} (h : f.Passes m) : checkWord f m = m.rng.map fun fl => ⟨.operandRange, fl⟩ := by
  obtain ⟨⟨dr, dk, dp⟩, ⟨ar, ak, ap⟩, ⟨br, bk, bp⟩, hc, hres, hmods, himm, hh, hok⟩ := h
  have hbits : .i ∉ m.b.kinds ∨ kindOf f.b ≠ .i ∧ m.b.kinds.length ≠ 1 → f.imm &&& ~~~(BitVec.ofNat 20 m.im) = 0 := by
    obtain ⟨hk, hi⟩ | hz := himm
    · rintro (h | ⟨h, -⟩)
      · exact absurd hk h
      · exact absurd hi h
    · exact fun _ => hz
  simpa [checkWord, dr, dk, dp, ar, ak, ap, br, bk, bp, hc, hres, hmods, hh, hok] using hbits

/-- The word of fields that pass, with no failure at step 8, is the instruction of its entry. -/
theorem decode_ok_of_passes {f : Fields} {m : Fmt} (hm : fmt f = some m) (h : f.Passes m) (hr : m.rng = none) :
    decode f.toWord = .ok (build f) := by
  simp [decode, hm, h.checkWord_eq, hr]

/-- The word of fields that pass, with a failure at step 8, is ILLEGAL, OPERAND_RANGE. -/
theorem decode_range_of_passes {f : Fields} {m : Fmt} {fl : Fld} (hm : fmt f = some m) (h : f.Passes m) (hr : m.rng = some fl) :
    decode f.toWord = .error ⟨.operandRange, fl⟩ := by
  simp [decode, hm, h.checkWord_eq, hr]

end Sys2Proof
end

section
/-! PROOFS. Code addresses (04 R72, R73, R78). -/

namespace Sys2Proof

/-! A displacement in operand B whose slot exceeds 9 (R78). -/

/-- An immediate field that holds a displacement whose slot exceeds 9 fails step 8 at B. -/
theorem Fields.dispRng_of_slot {f : Fields} {d : BitVec 30} (hf : f.imm = d.truncate 20) (hd : 9 < (d.extractLsb' 0 4).toNat) :
    f.dispRng = some .b := by
  have hs : f.imm.extractLsb' 0 4 = d.extractLsb' 0 4 := by
    rw [hf]
    ext i hi
    simp [show i < 20 by omega]
  rw [Fields.dispRng, hs, if_neg (by omega)]

/-- The slots of the entries whose operand B is a displacement: that of a branch, with and without a JOIN, of CALL and of LAUNCH. -/
theorem fmt_branch {f : Fields} (ho : f.op = 0x002) (hm : f.m 0 2 = 0) : fmt f = some { b := slI, mm := 3, rng := f.dispRng } := by
  simp [fmt, ho, hm]
theorem fmt_branch_join {f : Fields} (ho : f.op = 0x002) (hm : f.m 0 2 = 1 ∨ f.m 0 2 = 2) (hj : f.m 4 4 ≤ 9) :
    fmt f = some { d := slI, b := slI, mm := 0xF3, rng := f.dispRng } := by
  obtain hm | hm := hm <;> simp [fmt, ho, hm, Nat.not_lt.mpr hj]
theorem fmt_call_imm {f : Fields} (ho : f.op = 0x004) (hb : kindOf f.b = .i) :
    fmt f = some { d := slS 2, b := slSI 2, rng := f.dispRng } := by
  simp [fmt, ho, hb]
theorem fmt_launch_entry {f : Fields} (ho : f.op = 0x248) (hm : f.m 0 1 = 0) :
    fmt f = some { d := slS 1, a := slS 2, b := slI, mm := 1, rng := f.dispRng } := by
  simp [fmt, ho, hm]

theorem decode_bra_range (h : Hdr) {d : BitVec 30} (hd : 9 < (d.extractLsb' 0 4).toNat) :
    decode (Instr.bra h d).fields.toWord = .error ⟨.operandRange, .b⟩ :=
  decode_range_of_passes (fmt_branch rfl rfl)
    { d := Slot.accepts_unused, a := Slot.accepts_unused, b := slI_accepts _, c := rfl, res := rfl, mods := BitVec.zero_and
      imm := .inl ⟨List.mem_singleton_self _, kindOf_eI _⟩, hres := rfl, mok := rfl }
    (Fields.dispRng_of_slot rfl hd)

/-- The modifiers of a branch with a JOIN: the hint group in the low bits, the slot of the JOIN above it, and no other bit. -/
theorem branch_join_mods (js k : BitVec 4) (hk : k = 1 ∨ k = 2) :
    ((0#6 ++ js ++ k).extractLsb' 0 2).toNat = k.toNat ∧ (0#6 ++ js ++ k).extractLsb' 4 4 = js ∧
      (0#6 ++ js ++ k) &&& ~~~(BitVec.ofNat 14 0xF3) = 0 := by
  refine ⟨?_, ?_, ?_⟩
  · rw [extract_append_low _ _ _ _ (by decide)]
    obtain rfl | rfl := hk <;> rfl
  · rw [extract_append_high _ _ _ _ (by decide), extract_append_low _ _ _ _ (by decide), extract_whole]
  · obtain rfl | rfl := hk <;> revert js <;> decide

/-- BRA.DUAL and BRA.SPLIT differ in the hint group alone. -/
theorem decode_branch_join_range (h : Hdr) {d : BitVec 30} (jl : BitVec 10) {js k : BitVec 4} (hk : k = 1 ∨ k = 2)
    (hd : 9 < (d.extractLsb' 0 4).toNat) (hj : js.toNat ≤ 9) :
    decode (mkF 0x002 h (eI jl) 0 (eI (d.extractLsb' 20 10)) (0#6 ++ js ++ k) (d.truncate 20)).toWord = .error ⟨.operandRange, .b⟩ := by
  obtain ⟨hint, hslot, hmods⟩ := branch_join_mods js k hk
  have hm := fmt_branch_join (f := mkF 0x002 h (eI jl) 0 (eI (d.extractLsb' 20 10)) (0#6 ++ js ++ k) (d.truncate 20)) rfl
    (by simpa [Fields.m, mkF, hint] using hk.imp (congrArg BitVec.toNat) (congrArg BitVec.toNat))
    (by simpa [Fields.m, mkF, hslot] using hj)
  exact decode_range_of_passes hm
    { d := slI_accepts _, a := Slot.accepts_unused, b := slI_accepts _, c := rfl, res := rfl, mods := hmods
      imm := .inl ⟨List.mem_singleton_self _, kindOf_eI _⟩, hres := rfl, mok := rfl }
    (Fields.dispRng_of_slot rfl hd)

theorem decode_call_range (h : Hdr) {d : BitVec 30} {r : BitVec 7} (hd : 9 < (d.extractLsb' 0 4).toNat) (hr : r.toNat % 2 = 0) :
    decode (Instr.call h r (.i d)).fields.toWord = .error ⟨.operandRange, .b⟩ :=
  decode_range_of_passes (fmt_call_imm rfl (kindOf_eI _))
    { d := slS_accepts hr, a := Slot.accepts_unused, b := slSI_accepts_eI _ _, c := rfl, res := rfl, mods := BitVec.zero_and
      imm := .inl ⟨List.mem_cons_of_mem _ (List.mem_singleton_self _), kindOf_eI _⟩, hres := rfl, mok := rfl }
    (Fields.dispRng_of_slot rfl hd)

theorem decode_launch_range (h : Hdr) {d : BitVec 30} (r : BitVec 7) {a : BitVec 7} (hd : 9 < (d.extractLsb' 0 4).toNat)
    (ha : a.toNat % 2 = 0) : decode (Instr.launch h r a (some d)).fields.toWord = .error ⟨.operandRange, .b⟩ :=
  decode_range_of_passes (fmt_launch_entry rfl rfl)
    { d := slS_accepts (Nat.mod_one _), a := slS_accepts ha, b := slI_accepts _, c := rfl, res := rfl, mods := BitVec.zero_and
      imm := .inl ⟨List.mem_singleton_self _, kindOf_eI _⟩, hres := rfl, mok := rfl }
    (Fields.dispRng_of_slot rfl hd)

end Sys2Proof

namespace Sys2Proof.Machine

/-! The PC (R72, R73, R78). -/

theorem pcOk_iff (pc : PC) : pcOk pc = true ↔ pc.toNat < 2 ^ 56 ∧ pc.toNat % 128 ≤ 9 := by
  have hlt := pc.isLt
  simp only [pcOk, Bool.and_eq_true, beq_iff_eq, decide_eq_true_eq, ← BitVec.toNat_inj, BitVec.extractLsb'_toNat, Nat.shiftRight_eq_div_pow,
    BitVec.ofNat_eq_ofNat, BitVec.toNat_ofNat]
  omega

/-- The next PC of a well-formed PC: no wrap-around of the 64 bits occurs. -/
theorem nextPc_toNat {pc : PC} (h : pcOk pc = true) : (nextPc pc).toNat = if pc.toNat % 128 < 9 then pc.toNat + 1 else pc.toNat - 9 + 128 := by
  obtain ⟨hlt, hslot⟩ := (pcOk_iff pc).mp h
  have hs : (pc.extractLsb' 0 4).toNat = pc.toNat % 128 := by
    rw [BitVec.extractLsb'_toNat]
    simp only [Nat.shiftRight_zero]
    omega
  rw [nextPc, hs]
  split <;> bv_omega

/-- The line address of a PC. -/
theorem line_eq_ofNat (pc : PC) : (pc >>> 7) <<< 7 = BitVec.ofNat 64 (pc.toNat / 128 * 128) := by
  apply BitVec.eq_of_toNat_eq
  simp [Nat.shiftLeft_eq, Nat.shiftRight_eq_div_pow]

/-- A signed count of code lines, in bytes. -/
theorem lines_eq_ofInt {n : Nat} (x : BitVec n) : x.signExtend 64 <<< 7 = BitVec.ofInt 64 (128 * x.toInt) := by
  rw [BitVec.shiftLeft_eq_mul_twoPow, BitVec.signExtend, BitVec.mul_comm, BitVec.ofInt_mul]
  rfl

theorem dispPc_eq (pc : PC) (d : BitVec 30) : dispPc pc d =
    BitVec.ofNat 64 (pc.toNat / 128 * 128) + BitVec.ofInt 64 (128 * (d.extractLsb' 4 26).toInt) + (d.extractLsb' 0 4).zeroExtend 64 := by
  rw [dispPc, line_eq_ofNat, lines_eq_ofInt]

/-- Settles O12, by the arithmetic of the PC's fields, and the decoder's answer for each word with a displacement that passes the checks before
step 8 of R90. -/
theorem codeAddresses : Obligations.CodeAddresses :=
  ⟨pcOk_iff, fun _ => nextPc_toNat, dispPc_eq, fun h _ r _ jl _ hd => ⟨decode_bra_range h hd,
    fun hj => ⟨decode_branch_join_range h jl (.inl rfl) hd hj, decode_branch_join_range h jl (.inr rfl) hd hj⟩,
    decode_call_range h hd, decode_launch_range h r hd⟩⟩

end Sys2Proof.Machine
end

section
/-! PROOFS. The lanes that a guard selects (04 R79; 17 R257). -/

namespace Sys2Proof

/-- The encoding of NOP is accepted with every guard and every hint. -/
theorem decode_encode_nop (h : Hdr) : decode (encode (.nop h)) = .ok (.nop h) :=
  decode_ok_of_passes (f := (Instr.nop h).fields) (m := {}) rfl
    { d := Slot.accepts_unused, a := Slot.accepts_unused, b := Slot.accepts_unused, c := rfl, res := rfl, mods := BitVec.zero_and
      imm := .inr BitVec.zero_and, hres := rfl, mok := rfl }
    rfl

end Sys2Proof

namespace Sys2Proof.Machine

/-- The predicates that a guard reads: the wave's, and in handler mode the handler's own. -/
@[simp] theorem Wave.predFor_wave (w : Wave) (p : Nat) : w.predFor false p = w.predMask p := rfl
theorem Wave.predFor_handler {w : Wave} {h : Handler} (hw : w.hand = some h) (p : Nat) :
    w.predFor true p = if (if p = 7 then true else h.preds.getLsbD p) then 1 else 0 := by
  by_cases hp : p = 7 <;> simp [Wave.predFor, hw, hp]

/-- An active lane is selected where its predicate differs from the negate bit. -/
theorem guardSel_getLsbD (w : Wave) (hand : Bool) (g : Guard) (mask : Lanes) (l : Nat) :
    (guardSel w hand g mask).getLsbD l = (mask.getLsbD l && ((w.predFor hand g.p.toNat).getLsbD l != g.neg)) := by
  cases hn : g.neg
  · simp [guardSel, hn]
  · by_cases hl : l < 64
    · simp [guardSel, hn, hl]
    · simp [guardSel, hn, BitVec.getLsbD_of_ge mask l (by omega)]

/-- pt selects every active lane. -/
theorem guardSel_pt (w : Wave) (mask : Lanes) : guardSel w false ⟨false, 7⟩ mask = mask := BitVec.and_allOnes

/-- The negation of pt selects none. -/
theorem guardSel_not_pt (w : Wave) (mask : Lanes) : guardSel w false ⟨true, 7⟩ mask = 0 := by
  simp [guardSel, Wave.predMask]

/-- A handler has one lane, and its guard selects it or none. -/
theorem guardSel_handler {w : Wave} {h : Handler} (hw : w.hand = some h) (g : Guard) :
    guardSel w true g 1 = if (if g.p = 7 then true else h.preds.getLsbD g.p.toNat) != g.neg then 1 else 0 := by
  have hp : g.p.toNat = 7 ↔ g.p = 7 := BitVec.toNat_inj (y := 7)
  rw [guardSel, Wave.predFor_handler hw]
  simp only [hp]
  cases (if g.p = 7 then true else h.preds.getLsbD g.p.toNat) <;> cases g.neg <;> rfl

/-- Settles O16, lane by lane outside handler mode, and for the one lane of a handler. -/
theorem guardSelects : Obligations.GuardSelects := by
  refine ⟨fun i c hc => ⟨fun l => ?_, fun hg => ?_, fun hg => ?_⟩, fun i c h hc hh hm => ?_, fun _ _ _ _ => decode_encode_nop _⟩
  · simp only [Ctx.guard, hc, guardSel_getLsbD, Wave.predFor_wave]
  · simp only [Ctx.guard, hc, hg, guardSel_pt]
  · simp only [Ctx.guard, hc, hg, guardSel_not_pt]
  · simp only [Ctx.guard, hc, hm, guardSel_handler hh]

end Sys2Proof.Machine
end
